-- ==== Sys2Proof/Word.lean ====
section
/-! DEFINITION. The two data widths of the Z80 (R7, R8): bytes, and 16-bit words that also serve as
addresses. -/

namespace Sys2Proof

/-- An 8-bit value, bit 0 least significant (R8). -/
abbrev Byte := BitVec 8

/-- A 16-bit value: a register pair, an address, a port number (R8). -/
abbrev Word := BitVec 16

end Sys2Proof
end

