-- ==== Sys2Proof/Machine/Bits.lean ====
section
/-! DEFINITION. Bits, bytes and words: how a word is made of two bytes, sign extension, parity, bit numbers, and opcode
fields (R8, R93 to R97). The only place where the order of the two bytes of a word is decided. -/

namespace Sys2Proof.Machine

/-- The word with high byte `h` and low byte `l`: 256*h + l (R8, R95). -/
def word (h l : Byte) : Word := h ++ l

/-- Bits 15 to 8 of a word (R8). -/
def hi (w : Word) : Byte := w.extractLsb' 8 8

/-- Bits 7 to 0 of a word (R8). -/
def lo (w : Word) : Byte := w.extractLsb' 0 8

/-- A byte read as a two's-complement number, as an offset to be added to an address (R96, R97). -/
def sext (d : Byte) : Word := d.signExtend 16

/-- Even parity: an even number of 1 bits (R8, R33). -/
def parityEven (v : Byte) : Bool :=
  !(v.getLsbD 0 ^^ v.getLsbD 1 ^^ v.getLsbD 2 ^^ v.getLsbD 3 ^^ v.getLsbD 4 ^^ v.getLsbD 5 ^^ v.getLsbD 6 ^^ v.getLsbD 7)

/-- The byte with bit `b` alone set. -/
def bitMask (b : Nat) : Byte := (1 : Byte) <<< b

/-- A byte from its bits, the most significant first. -/
def byteOfBits (b7 b6 b5 b4 b3 b2 b1 b0 : Bool) : Byte :=
  BitVec.ofBool b7 ++ BitVec.ofBool b6 ++ BitVec.ofBool b5 ++ BitVec.ofBool b4 ++
    BitVec.ofBool b3 ++ BitVec.ofBool b2 ++ BitVec.ofBool b1 ++ BitVec.ofBool b0

/-- The opcode byte with the fields x (2 bits), y (3 bits) and z (3 bits) of R93. -/
def opcode (x y z : Nat) : Byte := BitVec.ofNat 8 (64 * x + 8 * y + z)

/-- Field x of an opcode byte (R93). -/
def opX (op : Byte) : Nat := op.toNat / 64

/-- Field y of an opcode byte (R93). -/
def opY (op : Byte) : Nat := op.toNat / 8 % 8

/-- Field z of an opcode byte (R93). -/
def opZ (op : Byte) : Nat := op.toNat % 8

/-- Field p of an opcode byte: its y without the low bit (R93). -/
def opP (op : Byte) : Nat := op.toNat / 16 % 4

end Sys2Proof.Machine
end

