-- ==== Sys2Proof/Syntax.lean ====
section
/-! DEFINITION. The instructions of the Z80 as syntax: one constructor for each row of the opcode table, in its order, and
the operand names of R23, R24 and R100. Bit numbers and restart addresses are checked in WellFormed. -/

namespace Sys2Proof

/-- The seven 8-bit registers a 3-bit operand field names; code 110 stands for memory and is not among them
(R23, R98). -/
inductive Reg8 where
  | b | c | d | e | h | l | a
deriving DecidableEq, Repr

/-- The operand dd or ss: a register pair with SP as its fourth name (R24, R99). -/
inductive PairSp where
  | bc | de | hl | sp
deriving DecidableEq, Repr

/-- The operand qq of PUSH and POP: a register pair with AF as its fourth name (R24, R99). -/
inductive PairAf where
  | bc | de | hl | af
deriving DecidableEq, Repr

/-- The operand pp of ADD IX,pp, where code 10 names IX (R24, R99). -/
inductive PairIx where
  | bc | de | ix | sp
deriving DecidableEq, Repr

/-- The operand rr of ADD IY,rr, where code 10 names IY (R24, R99). -/
inductive PairIy where
  | bc | de | iy | sp
deriving DecidableEq, Repr

/-- The condition operand cc (R100): not zero, zero, no carry, carry, parity odd, parity even, plus, minus. -/
inductive Cond where
  | nz | z | nc | c | po | pe | p | m
deriving DecidableEq, Repr

/-- One instruction. `n` is an immediate byte (R94), `nn` an immediate word or address (R95), `d` an index
displacement (R96), `e` the stored byte of a relative jump (R97), `b` a bit number (R101), `p` a restart
address (R102). -/
inductive Instr where
  /-- LD r,r', bytes 01yyyzzz (R130). -/
  | ldRR (dst : Reg8) (src : Reg8)
  /-- LD r,n, bytes 00yyy110_nnnnnnnn (R131). -/
  | ldRN (r : Reg8) (n : Byte)
  /-- LD r,(HL), bytes 01yyy110 (R132). -/
  | ldRHl (r : Reg8)
  /-- LD r,(IX+d), bytes 11011101_01yyy110_dddddddd (R133). -/
  | ldRIx (r : Reg8) (d : Byte)
  /-- LD r,(IY+d), bytes 11111101_01yyy110_dddddddd (R139). -/
  | ldRIy (r : Reg8) (d : Byte)
  /-- LD (HL),r, bytes 01110zzz (R134). -/
  | ldHlR (r : Reg8)
  /-- LD (IX+d),r, bytes 11011101_01110zzz_dddddddd (R135). -/
  | ldIxR (d : Byte) (r : Reg8)
  /-- LD (IY+d),r, bytes 11111101_01110zzz_dddddddd (R140). -/
  | ldIyR (d : Byte) (r : Reg8)
  /-- LD (HL),n, bytes 00110110_nnnnnnnn (R136). -/
  | ldHlN (n : Byte)
  /-- LD (IX+d),n, bytes 11011101_00110110_dddddddd_nnnnnnnn (R137). -/
  | ldIxN (d : Byte) (n : Byte)
  /-- LD (IY+d),n, bytes 11111101_00110110_dddddddd_nnnnnnnn (R138). -/
  | ldIyN (d : Byte) (n : Byte)
  /-- LD A,(BC), bytes 00001010 (R141). -/
  | ldABc
  /-- LD A,(DE), bytes 00011010 (R142). -/
  | ldADe
  /-- LD A,(nn), bytes 00111010_llllllll_hhhhhhhh (R143). -/
  | ldAMem (nn : Word)
  /-- LD (BC),A, bytes 00000010 (R144). -/
  | ldBcA
  /-- LD (DE),A, bytes 00010010 (R145). -/
  | ldDeA
  /-- LD (nn),A, bytes 00110010_llllllll_hhhhhhhh (R146). -/
  | ldMemA (nn : Word)
  /-- LD A,I, bytes 11101101_01010111 (R147). -/
  | ldAI
  /-- LD A,R, bytes 11101101_01011111 (R148). -/
  | ldAR
  /-- LD I,A, bytes 11101101_01000111 (R149). -/
  | ldIA
  /-- LD R,A, bytes 11101101_01001111 (R150). -/
  | ldRA
  /-- LD dd,nn, bytes 00pp0001_llllllll_hhhhhhhh (R160). -/
  | ldDdNn (dd : PairSp) (nn : Word)
  /-- LD IX,nn, bytes 11011101_00100001_llllllll_hhhhhhhh (R161). -/
  | ldIxNn (nn : Word)
  /-- LD IY,nn, bytes 11111101_00100001_llllllll_hhhhhhhh (R162). -/
  | ldIyNn (nn : Word)
  /-- LD HL,(nn), bytes 00101010_llllllll_hhhhhhhh (R163). -/
  | ldHlMem (nn : Word)
  /-- LD dd,(nn), bytes 11101101_01pp1011_llllllll_hhhhhhhh (R164). -/
  | ldDdMem (dd : PairSp) (nn : Word)
  /-- LD IX,(nn), bytes 11011101_00101010_llllllll_hhhhhhhh (R165). -/
  | ldIxMem (nn : Word)
  /-- LD IY,(nn), bytes 11111101_00101010_llllllll_hhhhhhhh (R166). -/
  | ldIyMem (nn : Word)
  /-- LD (nn),HL, bytes 00100010_llllllll_hhhhhhhh (R167). -/
  | ldMemHl (nn : Word)
  /-- LD (nn),dd, bytes 11101101_01pp0011_llllllll_hhhhhhhh (R168). -/
  | ldMemDd (nn : Word) (dd : PairSp)
  /-- LD (nn),IX, bytes 11011101_00100010_llllllll_hhhhhhhh (R169). -/
  | ldMemIx (nn : Word)
  /-- LD (nn),IY, bytes 11111101_00100010_llllllll_hhhhhhhh (R170). -/
  | ldMemIy (nn : Word)
  /-- LD SP,HL, bytes 11111001 (R172). -/
  | ldSpHl
  /-- LD SP,IX, bytes 11011101_11111001 (R173). -/
  | ldSpIx
  /-- LD SP,IY, bytes 11111101_11111001 (R174). -/
  | ldSpIy
  /-- PUSH qq, bytes 11pp0101 (R178). -/
  | pushQq (qq : PairAf)
  /-- PUSH IX, bytes 11011101_11100101 (R179). -/
  | pushIx
  /-- PUSH IY, bytes 11111101_11100101 (R180). -/
  | pushIy
  /-- POP qq, bytes 11pp0001 (R181). -/
  | popQq (qq : PairAf)
  /-- POP IX, bytes 11011101_11100001 (R182). -/
  | popIx
  /-- POP IY, bytes 11111101_11100001 (R183). -/
  | popIy
  /-- EX DE,HL, bytes 11101011 (R185). -/
  | exDeHl
  /-- EX AF,AF', bytes 00001000 (R186). -/
  | exAfAf
  /-- EXX, bytes 11011001 (R187). -/
  | exx
  /-- EX (SP),HL, bytes 11100011 (R188). -/
  | exSpHl
  /-- EX (SP),IX, bytes 11011101_11100011 (R189). -/
  | exSpIx
  /-- EX (SP),IY, bytes 11111101_11100011 (R190). -/
  | exSpIy
  /-- LDI, bytes 11101101_10100000 (R202). -/
  | ldi
  /-- LDD, bytes 11101101_10101000 (R203). -/
  | ldd
  /-- LDIR, bytes 11101101_10110000 (R204). -/
  | ldir
  /-- LDDR, bytes 11101101_10111000 (R205). -/
  | lddr
  /-- CPI, bytes 11101101_10100001 (R206). -/
  | cpi
  /-- CPD, bytes 11101101_10101001 (R207). -/
  | cpd
  /-- CPIR, bytes 11101101_10110001 (R208). -/
  | cpir
  /-- CPDR, bytes 11101101_10111001 (R209). -/
  | cpdr
  /-- ADD A,r, bytes 10000zzz (R222). -/
  | addAR (r : Reg8)
  /-- ADD A,n, bytes 11000110_nnnnnnnn (R222). -/
  | addAN (n : Byte)
  /-- ADD A,(HL), bytes 10000110 (R222). -/
  | addAHl
  /-- ADD A,(IX+d), bytes 11011101_10000110_dddddddd (R222). -/
  | addAIx (d : Byte)
  /-- ADD A,(IY+d), bytes 11111101_10000110_dddddddd (R222). -/
  | addAIy (d : Byte)
  /-- ADC A,r, bytes 10001zzz (R223). -/
  | adcAR (r : Reg8)
  /-- ADC A,n, bytes 11001110_nnnnnnnn (R223). -/
  | adcAN (n : Byte)
  /-- ADC A,(HL), bytes 10001110 (R223). -/
  | adcAHl
  /-- ADC A,(IX+d), bytes 11011101_10001110_dddddddd (R223). -/
  | adcAIx (d : Byte)
  /-- ADC A,(IY+d), bytes 11111101_10001110_dddddddd (R223). -/
  | adcAIy (d : Byte)
  /-- SUB r, bytes 10010zzz (R224). -/
  | subR (r : Reg8)
  /-- SUB n, bytes 11010110_nnnnnnnn (R224). -/
  | subN (n : Byte)
  /-- SUB (HL), bytes 10010110 (R224). -/
  | subHl
  /-- SUB (IX+d), bytes 11011101_10010110_dddddddd (R224). -/
  | subIx (d : Byte)
  /-- SUB (IY+d), bytes 11111101_10010110_dddddddd (R224). -/
  | subIy (d : Byte)
  /-- SBC A,r, bytes 10011zzz (R225). -/
  | sbcAR (r : Reg8)
  /-- SBC A,n, bytes 11011110_nnnnnnnn (R225). -/
  | sbcAN (n : Byte)
  /-- SBC A,(HL), bytes 10011110 (R225). -/
  | sbcAHl
  /-- SBC A,(IX+d), bytes 11011101_10011110_dddddddd (R225). -/
  | sbcAIx (d : Byte)
  /-- SBC A,(IY+d), bytes 11111101_10011110_dddddddd (R225). -/
  | sbcAIy (d : Byte)
  /-- AND r, bytes 10100zzz (R226). -/
  | andR (r : Reg8)
  /-- AND n, bytes 11100110_nnnnnnnn (R226). -/
  | andN (n : Byte)
  /-- AND (HL), bytes 10100110 (R226). -/
  | andHl
  /-- AND (IX+d), bytes 11011101_10100110_dddddddd (R226). -/
  | andIx (d : Byte)
  /-- AND (IY+d), bytes 11111101_10100110_dddddddd (R226). -/
  | andIy (d : Byte)
  /-- XOR r, bytes 10101zzz (R227). -/
  | xorR (r : Reg8)
  /-- XOR n, bytes 11101110_nnnnnnnn (R227). -/
  | xorN (n : Byte)
  /-- XOR (HL), bytes 10101110 (R227). -/
  | xorHl
  /-- XOR (IX+d), bytes 11011101_10101110_dddddddd (R227). -/
  | xorIx (d : Byte)
  /-- XOR (IY+d), bytes 11111101_10101110_dddddddd (R227). -/
  | xorIy (d : Byte)
  /-- OR r, bytes 10110zzz (R228). -/
  | orR (r : Reg8)
  /-- OR n, bytes 11110110_nnnnnnnn (R228). -/
  | orN (n : Byte)
  /-- OR (HL), bytes 10110110 (R228). -/
  | orHl
  /-- OR (IX+d), bytes 11011101_10110110_dddddddd (R228). -/
  | orIx (d : Byte)
  /-- OR (IY+d), bytes 11111101_10110110_dddddddd (R228). -/
  | orIy (d : Byte)
  /-- CP r, bytes 10111zzz (R229). -/
  | cpR (r : Reg8)
  /-- CP n, bytes 11111110_nnnnnnnn (R229). -/
  | cpN (n : Byte)
  /-- CP (HL), bytes 10111110 (R229). -/
  | cpHl
  /-- CP (IX+d), bytes 11011101_10111110_dddddddd (R229). -/
  | cpIx (d : Byte)
  /-- CP (IY+d), bytes 11111101_10111110_dddddddd (R229). -/
  | cpIy (d : Byte)
  /-- INC r, bytes 00yyy100 (R236). -/
  | incR (r : Reg8)
  /-- INC (HL), bytes 00110100 (R237). -/
  | incHl
  /-- INC (IX+d), bytes 11011101_00110100_dddddddd (R238). -/
  | incIxd (d : Byte)
  /-- INC (IY+d), bytes 11111101_00110100_dddddddd (R239). -/
  | incIyd (d : Byte)
  /-- DEC r, bytes 00yyy101 (R240). -/
  | decR (r : Reg8)
  /-- DEC (HL), bytes 00110101 (R241). -/
  | decHl
  /-- DEC (IX+d), bytes 11011101_00110101_dddddddd (R242). -/
  | decIxd (d : Byte)
  /-- DEC (IY+d), bytes 11111101_00110101_dddddddd (R243). -/
  | decIyd (d : Byte)
  /-- DAA, bytes 00100111 (R247). -/
  | daa
  /-- CPL, bytes 00101111 (R248). -/
  | cpl
  /-- NEG, bytes 11101101_01000100 (R249). -/
  | neg
  /-- CCF, bytes 00111111 (R250). -/
  | ccf
  /-- SCF, bytes 00110111 (R251). -/
  | scf
  /-- ADD HL,ss, bytes 00pp1001 (R260). -/
  | addHlSs (ss : PairSp)
  /-- ADD IX,pp, bytes 11011101_00pp1001 (R261). -/
  | addIxPp (pp : PairIx)
  /-- ADD IY,rr, bytes 11111101_00pp1001 (R262). -/
  | addIyRr (rr : PairIy)
  /-- ADC HL,ss, bytes 11101101_01pp1010 (R263). -/
  | adcHlSs (ss : PairSp)
  /-- SBC HL,ss, bytes 11101101_01pp0010 (R264). -/
  | sbcHlSs (ss : PairSp)
  /-- INC ss, bytes 00pp0011 (R270). -/
  | incSs (ss : PairSp)
  /-- INC IX, bytes 11011101_00100011 (R271). -/
  | incIx
  /-- INC IY, bytes 11111101_00100011 (R272). -/
  | incIy
  /-- DEC ss, bytes 00pp1011 (R273). -/
  | decSs (ss : PairSp)
  /-- DEC IX, bytes 11011101_00101011 (R274). -/
  | decIx
  /-- DEC IY, bytes 11111101_00101011 (R275). -/
  | decIy
  /-- RLCA, bytes 00000111 (R280). -/
  | rlca
  /-- RRCA, bytes 00001111 (R281). -/
  | rrca
  /-- RLA, bytes 00010111 (R282). -/
  | rla
  /-- RRA, bytes 00011111 (R283). -/
  | rra
  /-- RLC r, bytes 11001011_00000zzz (R284). -/
  | rlcR (r : Reg8)
  /-- RLC (HL), bytes 11001011_00000110 (R284). -/
  | rlcHl
  /-- RLC (IX+d), bytes 11011101_11001011_dddddddd_00000110 (R284). -/
  | rlcIx (d : Byte)
  /-- RLC (IY+d), bytes 11111101_11001011_dddddddd_00000110 (R284). -/
  | rlcIy (d : Byte)
  /-- RRC r, bytes 11001011_00001zzz (R285). -/
  | rrcR (r : Reg8)
  /-- RRC (HL), bytes 11001011_00001110 (R285). -/
  | rrcHl
  /-- RRC (IX+d), bytes 11011101_11001011_dddddddd_00001110 (R285). -/
  | rrcIx (d : Byte)
  /-- RRC (IY+d), bytes 11111101_11001011_dddddddd_00001110 (R285). -/
  | rrcIy (d : Byte)
  /-- RL r, bytes 11001011_00010zzz (R286). -/
  | rlR (r : Reg8)
  /-- RL (HL), bytes 11001011_00010110 (R286). -/
  | rlHl
  /-- RL (IX+d), bytes 11011101_11001011_dddddddd_00010110 (R286). -/
  | rlIx (d : Byte)
  /-- RL (IY+d), bytes 11111101_11001011_dddddddd_00010110 (R286). -/
  | rlIy (d : Byte)
  /-- RR r, bytes 11001011_00011zzz (R287). -/
  | rrR (r : Reg8)
  /-- RR (HL), bytes 11001011_00011110 (R287). -/
  | rrHl
  /-- RR (IX+d), bytes 11011101_11001011_dddddddd_00011110 (R287). -/
  | rrIx (d : Byte)
  /-- RR (IY+d), bytes 11111101_11001011_dddddddd_00011110 (R287). -/
  | rrIy (d : Byte)
  /-- SLA r, bytes 11001011_00100zzz (R288). -/
  | slaR (r : Reg8)
  /-- SLA (HL), bytes 11001011_00100110 (R288). -/
  | slaHl
  /-- SLA (IX+d), bytes 11011101_11001011_dddddddd_00100110 (R288). -/
  | slaIx (d : Byte)
  /-- SLA (IY+d), bytes 11111101_11001011_dddddddd_00100110 (R288). -/
  | slaIy (d : Byte)
  /-- SRA r, bytes 11001011_00101zzz (R289). -/
  | sraR (r : Reg8)
  /-- SRA (HL), bytes 11001011_00101110 (R289). -/
  | sraHl
  /-- SRA (IX+d), bytes 11011101_11001011_dddddddd_00101110 (R289). -/
  | sraIx (d : Byte)
  /-- SRA (IY+d), bytes 11111101_11001011_dddddddd_00101110 (R289). -/
  | sraIy (d : Byte)
  /-- SRL r, bytes 11001011_00111zzz (R290). -/
  | srlR (r : Reg8)
  /-- SRL (HL), bytes 11001011_00111110 (R290). -/
  | srlHl
  /-- SRL (IX+d), bytes 11011101_11001011_dddddddd_00111110 (R290). -/
  | srlIx (d : Byte)
  /-- SRL (IY+d), bytes 11111101_11001011_dddddddd_00111110 (R290). -/
  | srlIy (d : Byte)
  /-- RLD, bytes 11101101_01101111 (R291). -/
  | rld
  /-- RRD, bytes 11101101_01100111 (R292). -/
  | rrd
  /-- BIT b,r, bytes 11001011_01bbbzzz (R310). -/
  | bitR (b : Nat) (r : Reg8)
  /-- BIT b,(HL), bytes 11001011_01bbb110 (R311). -/
  | bitHl (b : Nat)
  /-- BIT b,(IX+d), bytes 11011101_11001011_dddddddd_01bbb110 (R312). -/
  | bitIx (b : Nat) (d : Byte)
  /-- BIT b,(IY+d), bytes 11111101_11001011_dddddddd_01bbb110 (R312). -/
  | bitIy (b : Nat) (d : Byte)
  /-- SET b,r, bytes 11001011_11bbbzzz (R313). -/
  | setR (b : Nat) (r : Reg8)
  /-- SET b,(HL), bytes 11001011_11bbb110 (R314). -/
  | setHl (b : Nat)
  /-- SET b,(IX+d), bytes 11011101_11001011_dddddddd_11bbb110 (R315). -/
  | setIx (b : Nat) (d : Byte)
  /-- SET b,(IY+d), bytes 11111101_11001011_dddddddd_11bbb110 (R315). -/
  | setIy (b : Nat) (d : Byte)
  /-- RES b,r, bytes 11001011_10bbbzzz (R316). -/
  | resR (b : Nat) (r : Reg8)
  /-- RES b,(HL), bytes 11001011_10bbb110 (R317). -/
  | resHl (b : Nat)
  /-- RES b,(IX+d), bytes 11011101_11001011_dddddddd_10bbb110 (R318). -/
  | resIx (b : Nat) (d : Byte)
  /-- RES b,(IY+d), bytes 11111101_11001011_dddddddd_10bbb110 (R318). -/
  | resIy (b : Nat) (d : Byte)
  /-- JP nn, bytes 11000011_llllllll_hhhhhhhh (R335). -/
  | jpNn (nn : Word)
  /-- JP cc,nn, bytes 11ccc010_llllllll_hhhhhhhh (R336). -/
  | jpCcNn (cc : Cond) (nn : Word)
  /-- JP (HL), bytes 11101001 (R337). -/
  | jpHl
  /-- JP (IX), bytes 11011101_11101001 (R338). -/
  | jpIx
  /-- JP (IY), bytes 11111101_11101001 (R339). -/
  | jpIy
  /-- JR e, bytes 00011000_eeeeeeee (R340). -/
  | jrE (e : Byte)
  /-- JR NZ,e, bytes 00100000_eeeeeeee (R341). -/
  | jrNz (e : Byte)
  /-- JR Z,e, bytes 00101000_eeeeeeee (R342). -/
  | jrZ (e : Byte)
  /-- JR NC,e, bytes 00110000_eeeeeeee (R343). -/
  | jrNc (e : Byte)
  /-- JR C,e, bytes 00111000_eeeeeeee (R344). -/
  | jrC (e : Byte)
  /-- DJNZ e, bytes 00010000_eeeeeeee (R345). -/
  | djnz (e : Byte)
  /-- CALL nn, bytes 11001101_llllllll_hhhhhhhh (R350). -/
  | callNn (nn : Word)
  /-- CALL cc,nn, bytes 11ccc100_llllllll_hhhhhhhh (R351). -/
  | callCcNn (cc : Cond) (nn : Word)
  /-- RET, bytes 11001001 (R355). -/
  | ret
  /-- RET cc, bytes 11ccc000 (R356). -/
  | retCc (cc : Cond)
  /-- RETI, bytes 11101101_01001101 (R357). -/
  | reti
  /-- RETN, bytes 11101101_01000101 (R358). -/
  | retn
  /-- RST p, bytes 11ttt111 (R362). -/
  | rstP (p : Byte)
  /-- IN A,(n), bytes 11011011_nnnnnnnn (R370). -/
  | inAN (n : Byte)
  /-- IN r,(C), bytes 11101101_01yyy000 (R371). -/
  | inRC (r : Reg8)
  /-- OUT (n),A, bytes 11010011_nnnnnnnn (R375). -/
  | outNA (n : Byte)
  /-- OUT (C),r, bytes 11101101_01yyy001 (R376). -/
  | outCR (r : Reg8)
  /-- INI, bytes 11101101_10100010 (R380). -/
  | ini
  /-- IND, bytes 11101101_10101010 (R381). -/
  | ind
  /-- INIR, bytes 11101101_10110010 (R382). -/
  | inir
  /-- INDR, bytes 11101101_10111010 (R383). -/
  | indr
  /-- OUTI, bytes 11101101_10100011 (R384). -/
  | outi
  /-- OUTD, bytes 11101101_10101011 (R385). -/
  | outd
  /-- OTIR, bytes 11101101_10110011 (R386). -/
  | otir
  /-- OTDR, bytes 11101101_10111011 (R387). -/
  | otdr
  /-- NOP, bytes 00000000 (R401). -/
  | nop
  /-- HALT, bytes 01110110 (R402). -/
  | halt
  /-- DI, bytes 11110011 (R403). -/
  | di
  /-- EI, bytes 11111011 (R404). -/
  | ei
  /-- IM 0, bytes 11101101_01000110 (R405). -/
  | im0
  /-- IM 1, bytes 11101101_01010110 (R406). -/
  | im1
  /-- IM 2, bytes 11101101_01011110 (R407). -/
  | im2
deriving DecidableEq, Repr

end Sys2Proof
end

