-- ==== Sys2Proof/WellFormed.lean ====
section
/-! DEFINITION. Which terms of `Instr` are instructions. Two operands are written with more values than an encoding admits:
a bit number (R101) and a restart address (R102). Every other operand has a type of exactly its values. -/

namespace Sys2Proof

/-- A bit number is 0 to 7 (R101); a restart address is one of 00H, 08H, … 38H (R102). -/
def Instr.wellFormed : Instr → Bool
  | .bitR b _ | .bitHl b | .bitIx b _ | .bitIy b _ => decide (b < 8)
  | .setR b _ | .setHl b | .setIx b _ | .setIy b _ => decide (b < 8)
  | .resR b _ | .resHl b | .resIx b _ | .resIy b _ => decide (b < 8)
  | .rstP p => p &&& 0xC7#8 == 0#8
  | _ => true

/-- The instruction has operands that an encoding admits. -/
abbrev Instr.WellFormed (i : Instr) : Prop := i.wellFormed = true

end Sys2Proof
end

