-- ==== Sys2Proof/Decode.lean ====
section
/-! DEFINITION. The decoder (R90 to R118): total on any bytes, an undefined encoding is refused by the bytes that make it
undefined. After it the encoder, written from the same tables. An opcode byte is read through its fields x, y, z (R93); the four
prefix bytes and the displacement before the fourth byte of the F12 forms are R103 and R91. -/

namespace Sys2Proof
open Machine

/-- Why bytes are not an instruction: the source defines no behaviour for them (R118; the bytes read so far), or
there are fewer bytes than the instruction needs. -/
inductive DecodeError where
  | unspecified (bytes : List Byte)
  | truncated (bytes : List Byte)
deriving DecidableEq, Repr

/-- The bytes that were read before the decoder gave up (R118). -/
def DecodeError.bytes : DecodeError → List Byte
  | .unspecified bs => bs
  | .truncated bs => bs

/-- What an opcode announces (R91): nothing defined, a whole instruction, or one that still takes a byte, a word (low byte
first), or two bytes. -/
inductive Plan where
  | undefined
  | fixed (i : Instr)
  | byte (f : Byte → Instr)
  | word (f : Word → Instr)
  | twoBytes (f : Byte → Byte → Instr)

/-! ## Operand fields -/

/-- The register with a 3-bit code; code 6 is the memory operand (R23, R98). -/
def reg8Of : Nat → Option Reg8
  | 0 => some .b | 1 => some .c | 2 => some .d | 3 => some .e | 4 => some .h | 5 => some .l | 7 => some .a
  | _ => none

/-- The pair with a 2-bit code dd or ss (R24). -/
def pairSpOf : Nat → PairSp
  | 0 => .bc | 1 => .de | 2 => .hl | _ => .sp

/-- The pair with a 2-bit code qq (R24). -/
def pairAfOf : Nat → PairAf
  | 0 => .bc | 1 => .de | 2 => .hl | _ => .af

/-- The pair with a 2-bit code pp (R24). -/
def pairIxOf : Nat → PairIx
  | 0 => .bc | 1 => .de | 2 => .ix | _ => .sp

/-- The pair with a 2-bit code rr (R24). -/
def pairIyOf : Nat → PairIy
  | 0 => .bc | 1 => .de | 2 => .iy | _ => .sp

/-- The condition with a 3-bit code (R100). -/
def condOf : Nat → Cond
  | 0 => .nz | 1 => .z | 2 => .nc | 3 => .c | 4 => .po | 5 => .pe | 6 => .p | _ => .m

/-- The plan of an opcode whose 3-bit field names a register, or the memory operand by code 6 (R98). -/
def regOrMem (code : Nat) (reg : Reg8 → Plan) (mem : Plan) : Plan :=
  match reg8Of code with
  | some r => reg r
  | none => mem

/-! ## The operation fields that several groups share -/

/-- The operation y of R109 on A and a register. -/
def aluR (y : Nat) (r : Reg8) : Instr :=
  match y with
  | 0 => .addAR r
  | 1 => .adcAR r
  | 2 => .subR r
  | 3 => .sbcAR r
  | 4 => .andR r
  | 5 => .xorR r
  | 6 => .orR r
  | _ => .cpR r

/-- The operation y of R110 on A and an immediate byte. -/
def aluN (y : Nat) (n : Byte) : Instr :=
  match y with
  | 0 => .addAN n
  | 1 => .adcAN n
  | 2 => .subN n
  | 3 => .sbcAN n
  | 4 => .andN n
  | 5 => .xorN n
  | 6 => .orN n
  | _ => .cpN n

/-- The operation y of R109 on A and (HL). -/
def aluHl (y : Nat) : Instr :=
  match y with
  | 0 => .addAHl
  | 1 => .adcAHl
  | 2 => .subHl
  | 3 => .sbcAHl
  | 4 => .andHl
  | 5 => .xorHl
  | 6 => .orHl
  | _ => .cpHl

/-- The operation y of R113 on A and (IX+d). -/
def aluIx (y : Nat) (d : Byte) : Instr :=
  match y with
  | 0 => .addAIx d
  | 1 => .adcAIx d
  | 2 => .subIx d
  | 3 => .sbcAIx d
  | 4 => .andIx d
  | 5 => .xorIx d
  | 6 => .orIx d
  | _ => .cpIx d

/-- The operation y of R113 on A and (IY+d). -/
def aluIy (y : Nat) (d : Byte) : Instr :=
  match y with
  | 0 => .addAIy d
  | 1 => .adcAIy d
  | 2 => .subIy d
  | 3 => .sbcAIy d
  | 4 => .andIy d
  | 5 => .xorIy d
  | 6 => .orIy d
  | _ => .cpIy d

/-- The rotate or shift y of R111 on a register; y = 6 is undefined (R118). -/
def rotR (y : Nat) (r : Reg8) : Plan :=
  match y with
  | 0 => .fixed (.rlcR r)
  | 1 => .fixed (.rrcR r)
  | 2 => .fixed (.rlR r)
  | 3 => .fixed (.rrR r)
  | 4 => .fixed (.slaR r)
  | 5 => .fixed (.sraR r)
  | 7 => .fixed (.srlR r)
  | _ => .undefined

/-- The rotate or shift y of R111 on (HL); y = 6 is undefined (R118). -/
def rotHl (y : Nat) : Plan :=
  match y with
  | 0 => .fixed (.rlcHl)
  | 1 => .fixed (.rrcHl)
  | 2 => .fixed (.rlHl)
  | 3 => .fixed (.rrHl)
  | 4 => .fixed (.slaHl)
  | 5 => .fixed (.sraHl)
  | 7 => .fixed (.srlHl)
  | _ => .undefined

/-- The rotate or shift y of R114 on (IX+d); y = 6 is undefined (R118). -/
def rotIx (y : Nat) (d : Byte) : Plan :=
  match y with
  | 0 => .fixed (.rlcIx d)
  | 1 => .fixed (.rrcIx d)
  | 2 => .fixed (.rlIx d)
  | 3 => .fixed (.rrIx d)
  | 4 => .fixed (.slaIx d)
  | 5 => .fixed (.sraIx d)
  | 7 => .fixed (.srlIx d)
  | _ => .undefined

/-- The rotate or shift y of R114 on (IY+d); y = 6 is undefined (R118). -/
def rotIy (y : Nat) (d : Byte) : Plan :=
  match y with
  | 0 => .fixed (.rlcIy d)
  | 1 => .fixed (.rrcIy d)
  | 2 => .fixed (.rlIy d)
  | 3 => .fixed (.rrIy d)
  | 4 => .fixed (.slaIy d)
  | 5 => .fixed (.sraIy d)
  | 7 => .fixed (.srlIy d)
  | _ => .undefined

/-! ## The opcode maps -/

/-- One-byte opcodes 00H to 3FH (R107). -/
def planX0 (y z : Nat) : Plan :=
  match z with
  | 0 =>
    match y with
    | 0 => .fixed .nop
    | 1 => .fixed .exAfAf
    | 2 => .byte .djnz
    | 3 => .byte .jrE
    | 4 => .byte .jrNz
    | 5 => .byte .jrZ
    | 6 => .byte .jrNc
    | _ => .byte .jrC
  | 1 => if y % 2 = 0 then .word (.ldDdNn (pairSpOf (y / 2))) else .fixed (.addHlSs (pairSpOf (y / 2)))
  | 2 =>
    match y with
    | 0 => .fixed .ldBcA
    | 1 => .fixed .ldABc
    | 2 => .fixed .ldDeA
    | 3 => .fixed .ldADe
    | 4 => .word .ldMemHl
    | 5 => .word .ldHlMem
    | 6 => .word .ldMemA
    | _ => .word .ldAMem
  | 3 => if y % 2 = 0 then .fixed (.incSs (pairSpOf (y / 2))) else .fixed (.decSs (pairSpOf (y / 2)))
  | 4 => regOrMem y (fun r => .fixed (.incR r)) (.fixed .incHl)
  | 5 => regOrMem y (fun r => .fixed (.decR r)) (.fixed .decHl)
  | 6 => regOrMem y (fun r => .byte (.ldRN r)) (.byte .ldHlN)
  | _ =>
    match y with
    | 0 => .fixed .rlca
    | 1 => .fixed .rrca
    | 2 => .fixed .rla
    | 3 => .fixed .rra
    | 4 => .fixed .daa
    | 5 => .fixed .cpl
    | 6 => .fixed .scf
    | _ => .fixed .ccf

/-- One-byte opcodes 40H to 7FH (R108): loads between registers and (HL); 76H is HALT. -/
def planX1 (y z : Nat) : Plan :=
  regOrMem y
    (fun dst => regOrMem z (fun src => .fixed (.ldRR dst src)) (.fixed (.ldRHl dst)))
    (regOrMem z (fun src => .fixed (.ldHlR src)) (.fixed .halt))

/-- One-byte opcodes C0H to FFH (R110); the four prefix bytes are no instructions by themselves. -/
def planX3 (y z : Nat) : Plan :=
  match z with
  | 0 => .fixed (.retCc (condOf y))
  | 1 =>
    if y % 2 = 0 then .fixed (.popQq (pairAfOf (y / 2)))
    else match y with
      | 1 => .fixed .ret
      | 3 => .fixed .exx
      | 5 => .fixed .jpHl
      | _ => .fixed .ldSpHl
  | 2 => .word (.jpCcNn (condOf y))
  | 3 =>
    match y with
    | 0 => .word .jpNn
    | 1 => .undefined
    | 2 => .byte .outNA
    | 3 => .byte .inAN
    | 4 => .fixed .exSpHl
    | 5 => .fixed .exDeHl
    | 6 => .fixed .di
    | _ => .fixed .ei
  | 4 => .word (.callCcNn (condOf y))
  | 5 =>
    if y % 2 = 0 then .fixed (.pushQq (pairAfOf (y / 2)))
    else if y = 1 then .word .callNn else .undefined
  | 6 => .byte (aluN y)
  | _ => .fixed (.rstP (BitVec.ofNat 8 (8 * y)))

/-- The one-byte opcode map (R107 to R110). -/
def planMain (op : Byte) : Plan :=
  match opX op with
  | 0 => planX0 (opY op) (opZ op)
  | 1 => planX1 (opY op) (opZ op)
  | 2 => regOrMem (opZ op) (fun r => .fixed (aluR (opY op) r)) (.fixed (aluHl (opY op)))
  | _ => planX3 (opY op) (opZ op)

/-- The second byte after CB (R111). -/
def planCb (op : Byte) : Plan :=
  match opX op with
  | 0 => regOrMem (opZ op) (rotR (opY op)) (rotHl (opY op))
  | 1 => regOrMem (opZ op) (fun r => .fixed (.bitR (opY op) r)) (.fixed (.bitHl (opY op)))
  | 2 => regOrMem (opZ op) (fun r => .fixed (.resR (opY op) r)) (.fixed (.resHl (opY op)))
  | _ => regOrMem (opZ op) (fun r => .fixed (.setR (opY op) r)) (.fixed (.setHl (opY op)))

/-- The second bytes 40H to 7FH after ED (R112). -/
def planEdX1 (y z : Nat) : Plan :=
  match z with
  | 0 => regOrMem y (fun r => .fixed (.inRC r)) .undefined
  | 1 => regOrMem y (fun r => .fixed (.outCR r)) .undefined
  | 2 => if y % 2 = 0 then .fixed (.sbcHlSs (pairSpOf (y / 2))) else .fixed (.adcHlSs (pairSpOf (y / 2)))
  | 3 =>
    if y % 2 = 0 then .word (fun nn => .ldMemDd nn (pairSpOf (y / 2))) else .word (.ldDdMem (pairSpOf (y / 2)))
  | 4 => if y = 0 then .fixed .neg else .undefined
  | 5 =>
    match y with
    | 0 => .fixed .retn
    | 1 => .fixed .reti
    | _ => .undefined
  | 6 =>
    match y with
    | 0 => .fixed .im0
    | 2 => .fixed .im1
    | 3 => .fixed .im2
    | _ => .undefined
  | _ =>
    match y with
    | 0 => .fixed .ldIA
    | 1 => .fixed .ldRA
    | 2 => .fixed .ldAI
    | 3 => .fixed .ldAR
    | 4 => .fixed .rrd
    | 5 => .fixed .rld
    | _ => .undefined

/-- The second bytes 80H to BFH after ED (R112): the block instructions. -/
def planEdX2 (y z : Nat) : Plan :=
  match z with
  | 0 =>
    match y with
    | 4 => .fixed .ldi | 5 => .fixed .ldd | 6 => .fixed .ldir | 7 => .fixed .lddr
    | _ => .undefined
  | 1 =>
    match y with
    | 4 => .fixed .cpi | 5 => .fixed .cpd | 6 => .fixed .cpir | 7 => .fixed .cpdr
    | _ => .undefined
  | 2 =>
    match y with
    | 4 => .fixed .ini | 5 => .fixed .ind | 6 => .fixed .inir | 7 => .fixed .indr
    | _ => .undefined
  | 3 =>
    match y with
    | 4 => .fixed .outi | 5 => .fixed .outd | 6 => .fixed .otir | 7 => .fixed .otdr
    | _ => .undefined
  | _ => .undefined

/-- The second byte after ED (R112); everything not listed there is undefined (R118). -/
def planEd (op : Byte) : Plan :=
  match opX op with
  | 1 => planEdX1 (opY op) (opZ op)
  | 2 => planEdX2 (opY op) (opZ op)
  | _ => .undefined

/-- The second byte after DD, but for CB (R113): the IX forms, and no others (R103). -/
def planIx (op : Byte) : Plan :=
  match opX op with
  | 0 =>
    match opZ op with
    | 1 =>
      if opY op % 2 = 1 then .fixed (.addIxPp (pairIxOf (opY op / 2)))
      else if opY op = 4 then .word .ldIxNn else .undefined
    | 2 =>
      match opY op with
      | 4 => .word .ldMemIx
      | 5 => .word .ldIxMem
      | _ => .undefined
    | 3 =>
      match opY op with
      | 4 => .fixed .incIx
      | 5 => .fixed .decIx
      | _ => .undefined
    | 4 => if opY op = 6 then .byte .incIxd else .undefined
    | 5 => if opY op = 6 then .byte .decIxd else .undefined
    | 6 => if opY op = 6 then .twoBytes .ldIxN else .undefined
    | _ => .undefined
  | 1 =>
    regOrMem (opY op)
      (fun r => regOrMem (opZ op) (fun _ => .undefined) (.byte (.ldRIx r)))
      (regOrMem (opZ op) (fun r => .byte (fun d => .ldIxR d r)) .undefined)
  | 2 => regOrMem (opZ op) (fun _ => .undefined) (.byte (aluIx (opY op)))
  | _ =>
    match opZ op with
    | 1 =>
      match opY op with
      | 4 => .fixed .popIx
      | 5 => .fixed .jpIx
      | 7 => .fixed .ldSpIx
      | _ => .undefined
    | 3 => if opY op = 4 then .fixed .exSpIx else .undefined
    | 5 => if opY op = 4 then .fixed .pushIx else .undefined
    | _ => .undefined

/-- The fourth byte after DD CB d (R114): only z = 6 is defined. -/
def planIxCb (d op : Byte) : Plan :=
  if opZ op = 6 then
    match opX op with
    | 0 => rotIx (opY op) d
    | 1 => .fixed (.bitIx (opY op) d)
    | 2 => .fixed (.resIx (opY op) d)
    | _ => .fixed (.setIx (opY op) d)
  else .undefined

/-- The second byte after FD, but for CB (R113): the IY forms, and no others (R103). -/
def planIy (op : Byte) : Plan :=
  match opX op with
  | 0 =>
    match opZ op with
    | 1 =>
      if opY op % 2 = 1 then .fixed (.addIyRr (pairIyOf (opY op / 2)))
      else if opY op = 4 then .word .ldIyNn else .undefined
    | 2 =>
      match opY op with
      | 4 => .word .ldMemIy
      | 5 => .word .ldIyMem
      | _ => .undefined
    | 3 =>
      match opY op with
      | 4 => .fixed .incIy
      | 5 => .fixed .decIy
      | _ => .undefined
    | 4 => if opY op = 6 then .byte .incIyd else .undefined
    | 5 => if opY op = 6 then .byte .decIyd else .undefined
    | 6 => if opY op = 6 then .twoBytes .ldIyN else .undefined
    | _ => .undefined
  | 1 =>
    regOrMem (opY op)
      (fun r => regOrMem (opZ op) (fun _ => .undefined) (.byte (.ldRIy r)))
      (regOrMem (opZ op) (fun r => .byte (fun d => .ldIyR d r)) .undefined)
  | 2 => regOrMem (opZ op) (fun _ => .undefined) (.byte (aluIy (opY op)))
  | _ =>
    match opZ op with
    | 1 =>
      match opY op with
      | 4 => .fixed .popIy
      | 5 => .fixed .jpIy
      | 7 => .fixed .ldSpIy
      | _ => .undefined
    | 3 => if opY op = 4 then .fixed .exSpIy else .undefined
    | 5 => if opY op = 4 then .fixed .pushIy else .undefined
    | _ => .undefined

/-- The fourth byte after FD CB d (R114): only z = 6 is defined. -/
def planIyCb (d op : Byte) : Plan :=
  if opZ op = 6 then
    match opX op with
    | 0 => rotIy (opY op) d
    | 1 => .fixed (.bitIy (opY op) d)
    | 2 => .fixed (.resIy (opY op) d)
    | _ => .fixed (.setIy (opY op) d)
  else .undefined

/-! ## The decoder -/

/-- Reads the operand bytes that a plan asks for (R94, R95); `got` are the opcode bytes before them. -/
def Plan.finish (p : Plan) (got rest : List Byte) : Except DecodeError (Instr × List Byte) :=
  match p, rest with
  | .undefined, _ => .error (.unspecified got)
  | .fixed i, r => .ok (i, r)
  | .byte f, n :: r => .ok (f n, r)
  | .word f, l :: h :: r => .ok (f (Machine.word h l), r)
  | .twoBytes f, d :: n :: r => .ok (f d n, r)
  | _, r => .error (.truncated (got ++ r))

/-- Reads a second opcode byte and what it announces (R92). -/
def decodeSecond (plan : Byte → Plan) (first : Byte) : List Byte → Except DecodeError (Instr × List Byte)
  | [] => .error (.truncated [first])
  | op :: rest => (plan op).finish [first, op] rest

/-- Reads what follows DD or FD: a second opcode byte, or CB, a displacement and a fourth byte (R92, R114). -/
def decodeIndexed (plan : Byte → Plan) (planCb : Byte → Byte → Plan) (first : Byte) :
    List Byte → Except DecodeError (Instr × List Byte)
  | [] => .error (.truncated [first])
  | second :: rest =>
    if second = 0xCB#8 then
      match rest with
      | d :: op :: rest' => (planCb d op).finish [first, second, d, op] rest'
      | r => .error (.truncated (first :: second :: r))
    else (plan second).finish [first, second] rest

/-- The instruction at the start of some bytes, and the bytes after it (R92). -/
def decode : List Byte → Except DecodeError (Instr × List Byte)
  | [] => .error (.truncated [])
  | op :: rest =>
    if op = 0xCB#8 then decodeSecond planCb op rest
    else if op = 0xED#8 then decodeSecond planEd op rest
    else if op = 0xDD#8 then decodeIndexed planIx planIxCb op rest
    else if op = 0xFD#8 then decodeIndexed planIy planIyCb op rest
    else (planMain op).finish [op] rest

/-! ## The encoder -/

/-- The 3-bit code of a register (R23). -/
def reg8Code : Reg8 → Nat
  | .b => 0 | .c => 1 | .d => 2 | .e => 3 | .h => 4 | .l => 5 | .a => 7

/-- The 2-bit code of a pair dd or ss (R24). -/
def pairSpCode : PairSp → Nat
  | .bc => 0 | .de => 1 | .hl => 2 | .sp => 3

/-- The 2-bit code of a pair qq (R24). -/
def pairAfCode : PairAf → Nat
  | .bc => 0 | .de => 1 | .hl => 2 | .af => 3

/-- The 2-bit code of a pair pp (R24). -/
def pairIxCode : PairIx → Nat
  | .bc => 0 | .de => 1 | .ix => 2 | .sp => 3

/-- The 2-bit code of a pair rr (R24). -/
def pairIyCode : PairIy → Nat
  | .bc => 0 | .de => 1 | .iy => 2 | .sp => 3

/-- The 3-bit code of a condition (R100). -/
def condCode : Cond → Nat
  | .nz => 0 | .z => 1 | .nc => 2 | .c => 3 | .po => 4 | .pe => 5 | .p => 6 | .m => 7

/-- The bytes of an instruction in memory order (R90, R91), from the encodings of the opcode table. -/
def encode : Instr → List Byte
  | .ldRR dst src => [BitVec.ofNat 8 (0x40 + 8 * reg8Code dst + reg8Code src)]
  | .ldRN r n => [BitVec.ofNat 8 (0x06 + 8 * reg8Code r), n]
  | .ldRHl r => [BitVec.ofNat 8 (0x46 + 8 * reg8Code r)]
  | .ldRIx r d => [0xDD#8, BitVec.ofNat 8 (0x46 + 8 * reg8Code r), d]
  | .ldRIy r d => [0xFD#8, BitVec.ofNat 8 (0x46 + 8 * reg8Code r), d]
  | .ldHlR r => [BitVec.ofNat 8 (0x70 + reg8Code r)]
  | .ldIxR d r => [0xDD#8, BitVec.ofNat 8 (0x70 + reg8Code r), d]
  | .ldIyR d r => [0xFD#8, BitVec.ofNat 8 (0x70 + reg8Code r), d]
  | .ldHlN n => [0x36#8, n]
  | .ldIxN d n => [0xDD#8, 0x36#8, d, n]
  | .ldIyN d n => [0xFD#8, 0x36#8, d, n]
  | .ldABc => [0x0A#8]
  | .ldADe => [0x1A#8]
  | .ldAMem nn => [0x3A#8, lo nn, hi nn]
  | .ldBcA => [0x02#8]
  | .ldDeA => [0x12#8]
  | .ldMemA nn => [0x32#8, lo nn, hi nn]
  | .ldAI => [0xED#8, 0x57#8]
  | .ldAR => [0xED#8, 0x5F#8]
  | .ldIA => [0xED#8, 0x47#8]
  | .ldRA => [0xED#8, 0x4F#8]
  | .ldDdNn dd nn => [BitVec.ofNat 8 (0x01 + 16 * pairSpCode dd), lo nn, hi nn]
  | .ldIxNn nn => [0xDD#8, 0x21#8, lo nn, hi nn]
  | .ldIyNn nn => [0xFD#8, 0x21#8, lo nn, hi nn]
  | .ldHlMem nn => [0x2A#8, lo nn, hi nn]
  | .ldDdMem dd nn => [0xED#8, BitVec.ofNat 8 (0x4B + 16 * pairSpCode dd), lo nn, hi nn]
  | .ldIxMem nn => [0xDD#8, 0x2A#8, lo nn, hi nn]
  | .ldIyMem nn => [0xFD#8, 0x2A#8, lo nn, hi nn]
  | .ldMemHl nn => [0x22#8, lo nn, hi nn]
  | .ldMemDd nn dd => [0xED#8, BitVec.ofNat 8 (0x43 + 16 * pairSpCode dd), lo nn, hi nn]
  | .ldMemIx nn => [0xDD#8, 0x22#8, lo nn, hi nn]
  | .ldMemIy nn => [0xFD#8, 0x22#8, lo nn, hi nn]
  | .ldSpHl => [0xF9#8]
  | .ldSpIx => [0xDD#8, 0xF9#8]
  | .ldSpIy => [0xFD#8, 0xF9#8]
  | .pushQq qq => [BitVec.ofNat 8 (0xC5 + 16 * pairAfCode qq)]
  | .pushIx => [0xDD#8, 0xE5#8]
  | .pushIy => [0xFD#8, 0xE5#8]
  | .popQq qq => [BitVec.ofNat 8 (0xC1 + 16 * pairAfCode qq)]
  | .popIx => [0xDD#8, 0xE1#8]
  | .popIy => [0xFD#8, 0xE1#8]
  | .exDeHl => [0xEB#8]
  | .exAfAf => [0x08#8]
  | .exx => [0xD9#8]
  | .exSpHl => [0xE3#8]
  | .exSpIx => [0xDD#8, 0xE3#8]
  | .exSpIy => [0xFD#8, 0xE3#8]
  | .ldi => [0xED#8, 0xA0#8]
  | .ldd => [0xED#8, 0xA8#8]
  | .ldir => [0xED#8, 0xB0#8]
  | .lddr => [0xED#8, 0xB8#8]
  | .cpi => [0xED#8, 0xA1#8]
  | .cpd => [0xED#8, 0xA9#8]
  | .cpir => [0xED#8, 0xB1#8]
  | .cpdr => [0xED#8, 0xB9#8]
  | .addAR r => [BitVec.ofNat 8 (0x80 + reg8Code r)]
  | .addAN n => [0xC6#8, n]
  | .addAHl => [0x86#8]
  | .addAIx d => [0xDD#8, 0x86#8, d]
  | .addAIy d => [0xFD#8, 0x86#8, d]
  | .adcAR r => [BitVec.ofNat 8 (0x88 + reg8Code r)]
  | .adcAN n => [0xCE#8, n]
  | .adcAHl => [0x8E#8]
  | .adcAIx d => [0xDD#8, 0x8E#8, d]
  | .adcAIy d => [0xFD#8, 0x8E#8, d]
  | .subR r => [BitVec.ofNat 8 (0x90 + reg8Code r)]
  | .subN n => [0xD6#8, n]
  | .subHl => [0x96#8]
  | .subIx d => [0xDD#8, 0x96#8, d]
  | .subIy d => [0xFD#8, 0x96#8, d]
  | .sbcAR r => [BitVec.ofNat 8 (0x98 + reg8Code r)]
  | .sbcAN n => [0xDE#8, n]
  | .sbcAHl => [0x9E#8]
  | .sbcAIx d => [0xDD#8, 0x9E#8, d]
  | .sbcAIy d => [0xFD#8, 0x9E#8, d]
  | .andR r => [BitVec.ofNat 8 (0xA0 + reg8Code r)]
  | .andN n => [0xE6#8, n]
  | .andHl => [0xA6#8]
  | .andIx d => [0xDD#8, 0xA6#8, d]
  | .andIy d => [0xFD#8, 0xA6#8, d]
  | .xorR r => [BitVec.ofNat 8 (0xA8 + reg8Code r)]
  | .xorN n => [0xEE#8, n]
  | .xorHl => [0xAE#8]
  | .xorIx d => [0xDD#8, 0xAE#8, d]
  | .xorIy d => [0xFD#8, 0xAE#8, d]
  | .orR r => [BitVec.ofNat 8 (0xB0 + reg8Code r)]
  | .orN n => [0xF6#8, n]
  | .orHl => [0xB6#8]
  | .orIx d => [0xDD#8, 0xB6#8, d]
  | .orIy d => [0xFD#8, 0xB6#8, d]
  | .cpR r => [BitVec.ofNat 8 (0xB8 + reg8Code r)]
  | .cpN n => [0xFE#8, n]
  | .cpHl => [0xBE#8]
  | .cpIx d => [0xDD#8, 0xBE#8, d]
  | .cpIy d => [0xFD#8, 0xBE#8, d]
  | .incR r => [BitVec.ofNat 8 (0x04 + 8 * reg8Code r)]
  | .incHl => [0x34#8]
  | .incIxd d => [0xDD#8, 0x34#8, d]
  | .incIyd d => [0xFD#8, 0x34#8, d]
  | .decR r => [BitVec.ofNat 8 (0x05 + 8 * reg8Code r)]
  | .decHl => [0x35#8]
  | .decIxd d => [0xDD#8, 0x35#8, d]
  | .decIyd d => [0xFD#8, 0x35#8, d]
  | .daa => [0x27#8]
  | .cpl => [0x2F#8]
  | .neg => [0xED#8, 0x44#8]
  | .ccf => [0x3F#8]
  | .scf => [0x37#8]
  | .addHlSs ss => [BitVec.ofNat 8 (0x09 + 16 * pairSpCode ss)]
  | .addIxPp pp => [0xDD#8, BitVec.ofNat 8 (0x09 + 16 * pairIxCode pp)]
  | .addIyRr rr => [0xFD#8, BitVec.ofNat 8 (0x09 + 16 * pairIyCode rr)]
  | .adcHlSs ss => [0xED#8, BitVec.ofNat 8 (0x4A + 16 * pairSpCode ss)]
  | .sbcHlSs ss => [0xED#8, BitVec.ofNat 8 (0x42 + 16 * pairSpCode ss)]
  | .incSs ss => [BitVec.ofNat 8 (0x03 + 16 * pairSpCode ss)]
  | .incIx => [0xDD#8, 0x23#8]
  | .incIy => [0xFD#8, 0x23#8]
  | .decSs ss => [BitVec.ofNat 8 (0x0B + 16 * pairSpCode ss)]
  | .decIx => [0xDD#8, 0x2B#8]
  | .decIy => [0xFD#8, 0x2B#8]
  | .rlca => [0x07#8]
  | .rrca => [0x0F#8]
  | .rla => [0x17#8]
  | .rra => [0x1F#8]
  | .rlcR r => [0xCB#8, BitVec.ofNat 8 (0x00 + reg8Code r)]
  | .rlcHl => [0xCB#8, 0x06#8]
  | .rlcIx d => [0xDD#8, 0xCB#8, d, 0x06#8]
  | .rlcIy d => [0xFD#8, 0xCB#8, d, 0x06#8]
  | .rrcR r => [0xCB#8, BitVec.ofNat 8 (0x08 + reg8Code r)]
  | .rrcHl => [0xCB#8, 0x0E#8]
  | .rrcIx d => [0xDD#8, 0xCB#8, d, 0x0E#8]
  | .rrcIy d => [0xFD#8, 0xCB#8, d, 0x0E#8]
  | .rlR r => [0xCB#8, BitVec.ofNat 8 (0x10 + reg8Code r)]
  | .rlHl => [0xCB#8, 0x16#8]
  | .rlIx d => [0xDD#8, 0xCB#8, d, 0x16#8]
  | .rlIy d => [0xFD#8, 0xCB#8, d, 0x16#8]
  | .rrR r => [0xCB#8, BitVec.ofNat 8 (0x18 + reg8Code r)]
  | .rrHl => [0xCB#8, 0x1E#8]
  | .rrIx d => [0xDD#8, 0xCB#8, d, 0x1E#8]
  | .rrIy d => [0xFD#8, 0xCB#8, d, 0x1E#8]
  | .slaR r => [0xCB#8, BitVec.ofNat 8 (0x20 + reg8Code r)]
  | .slaHl => [0xCB#8, 0x26#8]
  | .slaIx d => [0xDD#8, 0xCB#8, d, 0x26#8]
  | .slaIy d => [0xFD#8, 0xCB#8, d, 0x26#8]
  | .sraR r => [0xCB#8, BitVec.ofNat 8 (0x28 + reg8Code r)]
  | .sraHl => [0xCB#8, 0x2E#8]
  | .sraIx d => [0xDD#8, 0xCB#8, d, 0x2E#8]
  | .sraIy d => [0xFD#8, 0xCB#8, d, 0x2E#8]
  | .srlR r => [0xCB#8, BitVec.ofNat 8 (0x38 + reg8Code r)]
  | .srlHl => [0xCB#8, 0x3E#8]
  | .srlIx d => [0xDD#8, 0xCB#8, d, 0x3E#8]
  | .srlIy d => [0xFD#8, 0xCB#8, d, 0x3E#8]
  | .rld => [0xED#8, 0x6F#8]
  | .rrd => [0xED#8, 0x67#8]
  | .bitR b r => [0xCB#8, BitVec.ofNat 8 (0x40 + 8 * b + reg8Code r)]
  | .bitHl b => [0xCB#8, BitVec.ofNat 8 (0x46 + 8 * b)]
  | .bitIx b d => [0xDD#8, 0xCB#8, d, BitVec.ofNat 8 (0x46 + 8 * b)]
  | .bitIy b d => [0xFD#8, 0xCB#8, d, BitVec.ofNat 8 (0x46 + 8 * b)]
  | .setR b r => [0xCB#8, BitVec.ofNat 8 (0xC0 + 8 * b + reg8Code r)]
  | .setHl b => [0xCB#8, BitVec.ofNat 8 (0xC6 + 8 * b)]
  | .setIx b d => [0xDD#8, 0xCB#8, d, BitVec.ofNat 8 (0xC6 + 8 * b)]
  | .setIy b d => [0xFD#8, 0xCB#8, d, BitVec.ofNat 8 (0xC6 + 8 * b)]
  | .resR b r => [0xCB#8, BitVec.ofNat 8 (0x80 + 8 * b + reg8Code r)]
  | .resHl b => [0xCB#8, BitVec.ofNat 8 (0x86 + 8 * b)]
  | .resIx b d => [0xDD#8, 0xCB#8, d, BitVec.ofNat 8 (0x86 + 8 * b)]
  | .resIy b d => [0xFD#8, 0xCB#8, d, BitVec.ofNat 8 (0x86 + 8 * b)]
  | .jpNn nn => [0xC3#8, lo nn, hi nn]
  | .jpCcNn cc nn => [BitVec.ofNat 8 (0xC2 + 8 * condCode cc), lo nn, hi nn]
  | .jpHl => [0xE9#8]
  | .jpIx => [0xDD#8, 0xE9#8]
  | .jpIy => [0xFD#8, 0xE9#8]
  | .jrE e => [0x18#8, e]
  | .jrNz e => [0x20#8, e]
  | .jrZ e => [0x28#8, e]
  | .jrNc e => [0x30#8, e]
  | .jrC e => [0x38#8, e]
  | .djnz e => [0x10#8, e]
  | .callNn nn => [0xCD#8, lo nn, hi nn]
  | .callCcNn cc nn => [BitVec.ofNat 8 (0xC4 + 8 * condCode cc), lo nn, hi nn]
  | .ret => [0xC9#8]
  | .retCc cc => [BitVec.ofNat 8 (0xC0 + 8 * condCode cc)]
  | .reti => [0xED#8, 0x4D#8]
  | .retn => [0xED#8, 0x45#8]
  | .rstP p => [0xC7#8 ||| p]
  | .inAN n => [0xDB#8, n]
  | .inRC r => [0xED#8, BitVec.ofNat 8 (0x40 + 8 * reg8Code r)]
  | .outNA n => [0xD3#8, n]
  | .outCR r => [0xED#8, BitVec.ofNat 8 (0x41 + 8 * reg8Code r)]
  | .ini => [0xED#8, 0xA2#8]
  | .ind => [0xED#8, 0xAA#8]
  | .inir => [0xED#8, 0xB2#8]
  | .indr => [0xED#8, 0xBA#8]
  | .outi => [0xED#8, 0xA3#8]
  | .outd => [0xED#8, 0xAB#8]
  | .otir => [0xED#8, 0xB3#8]
  | .otdr => [0xED#8, 0xBB#8]
  | .nop => [0x00#8]
  | .halt => [0x76#8]
  | .di => [0xF3#8]
  | .ei => [0xFB#8]
  | .im0 => [0xED#8, 0x46#8]
  | .im1 => [0xED#8, 0x56#8]
  | .im2 => [0xED#8, 0x5E#8]

/-- How many bytes an instruction takes (R90). -/
def Instr.length (i : Instr) : Nat := (encode i).length

/-- How many of its bytes are read in M1 cycles, which is how often the fetch counts R (R38, R92, D7): the opcode byte, and
the one after a prefix. -/
def Instr.m1Cycles (i : Instr) : Nat :=
  match encode i with
  | op :: _ => if op = 0xCB#8 ∨ op = 0xDD#8 ∨ op = 0xED#8 ∨ op = 0xFD#8 then 2 else 1
  | [] => 0

/-! ## Words of the opcode table -/

/-- The `k` low bytes of a number, the most significant first: the opcode table counts the bits of its fixed fields so (its first
byte holds the highest bits). -/
def bytesHighFirst (w : Nat) : Nat → List Byte
  | 0 => []
  | k + 1 => BitVec.ofNat 8 (w / 256 ^ k) :: bytesHighFirst w k

/-- The `k` low bytes of a number, the least significant first. -/
def bytesLowFirst (w : Nat) : Nat → List Byte
  | 0 => []
  | k + 1 => BitVec.ofNat 8 w :: bytesLowFirst (w / 256) k

/-- Four bytes from a list, zeros where it is shorter. -/
def padFour (bs : List Byte) : List Byte := (bs ++ [0#8, 0#8, 0#8, 0#8]).take 4

/-- The bytes decode to an instruction of exactly `k` bytes. -/
def decodesTo (k : Nat) (bs : List Byte) : Bool :=
  match decode bs with
  | .ok (i, _) => i.length == k
  | .error _ => false

/-- The four bytes that a table word of `nbits` bits stands for (DESIGN CHOICE, log entry 7). The table numbers the bits with the FIRST byte
of the instruction highest; where bytes laid out so are no instruction of `nbits` bits, the first byte is taken to be the lowest. -/
def tableBytes (nbits w : Nat) : List Byte :=
  let k := nbits / 8
  let high := padFour (bytesHighFirst w k)
  let low := padFour (bytesLowFirst w k)
  if decodesTo k high then high else if decodesTo k low then low else high

/-- The instruction the decoder reads from a word of the opcode table. -/
def decodeTableWord (nbits w : Nat) : Option Instr :=
  match decode (tableBytes nbits w) with
  | .ok (i, _) => some i
  | .error _ => none

end Sys2Proof
end

