-- ==== Sys2Proof/Config.lean ====
section
/-! DEFINITION. The free values of the machine: constants with no body, so that nothing in Lean can
evaluate them. Each is what the spec writes as `unspec_1()` or `unspec_8()` (R11): an arbitrary value
that no proof may depend on. They are applied to the model's step counter (`State.tick`), so that a
fresh value is drawn in every step (DESIGN CHOICE, log entry 4). -/

namespace Sys2Proof

/-- Which of the accesses of one step reads: two accesses of one step to one unpopulated address may
read different values (93, "any value per access"). -/
inductive Cycle where
  /-- an opcode or operand byte fetched through PC (R92) -/
  | fetch
  /-- a data, stack or vector read of the CPU -/
  | data
  /-- a memory read of a DMA chip or of another bus master, with the board's count of drawn values -/
  | dma (draws : Nat)
deriving DecidableEq, Repr

namespace Config

/-- The eight undefined flag values of one step, as a byte in the layout of F: every flag marked X in
table 16, and F bits 5 and 3 after any flag-affecting instruction (R11, D2, D3, D16, D19). -/
opaque freeFlags : Nat → BitVec 8

/-- Bits 6 to 0 of R after time spent in the HALT state (R38, R452, D7). -/
opaque freeRefresh : Nat → BitVec 7

/-- What a read of an address with nothing mapped returns, in the given step, access and address
(R62, R70). -/
opaque openBus : Nat → Cycle → Word → Byte

/-- What a read of a port with no device, or of a device the host does not answer for, returns: by step, the board's count of
drawn values, and port (R66). -/
opaque openPort : Nat → Nat → Word → Byte

/-- The content of a memory cell that nothing has written: RAM at power-on, or a ROM whose content the
state does not list (R582, R584). One value for each cell, for good. -/
opaque powerOnByte : Nat → Byte

/-- The registers that the RESET line leaves unspecified, by step and register number (R580, D8). -/
opaque resetWord : Nat → Nat → Word

/-- The byte on the data bus in an acknowledge cycle that nobody drives, by step (R436). -/
opaque ackByte : Nat → Byte

/-- Chip values the sources do not describe: a PIO control read, a PIO data read in mode 0, an SIO read register, the bits above
a short character, a DMA read with no register selected, the registers that a chip's reset does not name, and a DMA after a word
it does not know (R483, R484, R485, R503, R508, R511, R527, R550, R551). By step, the board's count of drawn values, and a number
that tells the uses apart. -/
opaque chipByte : Nat → Nat → Nat → Byte

/-- The vector that an SIO delivers where the status affects it, from write register 2 and the status of its channels as a number:
which bits change is lost (R507). -/
opaque sioVector : Byte → Nat → Byte

/-- How many received characters an SIO channel holds: not stated (R500). A channel always holds one. -/
opaque sioDepth : Nat

/-- The parts of SIO write register 5 whose places are lost (R510): the RTS and DTR bits, the transmitter's enable, and by how many the
bits of a character that is sent exceed five, which R500 bounds. -/
opaque sioRts : Byte → Bool
/-- see `sioRts` -/
opaque sioDtr : Byte → Bool
/-- see `sioRts` -/
opaque sioTransmitOn : Byte → Bool
/-- see `sioRts` -/
opaque sioTransmitBits : Byte → Fin 4

/-- A CRC register of an SIO after one more character, from write registers 3 and 5, which select what is lost: the polynomial
(CRC-16 or CCITT) and whether the unit is on (R500, R510). -/
opaque sioCrcStep : Byte → Byte → Word → Byte → Word

/-- A CRC register of an SIO after its reset command, from write registers 3 and 5 (R505). -/
opaque sioCrcStart : Byte → Byte → Word

/-- The check of an SIO's receive CRC register finds no error, from write registers 3 and 5 (R500). -/
opaque sioCrcGood : Byte → Byte → Word → Bool

/-- Part of SIO write register 5 whose place is lost: a transmitter that runs empty sends its CRC (R500, R510). -/
opaque sioSendsCrc : Byte → Bool

/-- Part of SIO write register 3 whose place is lost: a write of it sends the receiver back to look for synchronisation (R508). -/
opaque sioEnterHunt : Byte → Bool

/-- The sync characters of an SIO, from write registers 6 and 7, whose layout is lost (R510), by their use: 0 sent and 1 looked for with
8-bit sync, 2 the first and 3 the second of 16-bit sync. -/
opaque sioSyncChar : Byte → Byte → Nat → Byte

/-- The bit of a DMA's read mask whose register comes next, from the bits that are still to be read: the order is not stated
(R551). -/
opaque dmaReadNext : Byte → Nat

/-- The platform parameter CLOCK_HZ (R2, R7); no step reads it (R597). -/
opaque clockHz : Nat

end Config
end Sys2Proof
end

