-- ==== Sys2Proof/Machine/Devices.lean ====
section
/-! DEFINITION. The plain data of everything outside the CPU that the spec describes: memory and its map (R60, R70), the I/O
map (R71), the four support chips (61), their priority chain (R445, R560), and what the host supplies at a boundary (R470). The
operations over these types are in Memory, Pio, Sio, Ctc, Dma, Chain and Bus. -/

namespace Sys2Proof.Machine

/-! ## Memory and its map -/

/-- The stored bytes: cell numbers strictly rising. A cell that is not listed holds no stored value and reads as
`Config.powerOnByte` of its number (DESIGN CHOICE, log entry 2). -/
abbrev Memory := List Host.Cell

/-- What answers at an address (R63, R70, R470): a ROM ignores writes, a RAM takes them, a guarded RAM takes them unless the board
protects it against writing (R558), and a device of the host's in memory space sees every access (R62). -/
inductive MemKind where
  | rom
  | ram
  | guardedRam
  | device
deriving DecidableEq, Repr

/-- One memory chip on the address bus. It answers at every address `a` with `a &&& mask = select`; the address bits in `within`
choose the cell, so that incomplete decoding makes mirrors (R70, R565). `base` is its first cell number. -/
structure Region where
  mask : Word
  select : Word
  kind : MemKind
  base : Nat
  within : Word
deriving DecidableEq, Repr

/-- A boot overlay (R74, R572): while active its regions answer before the others. An I/O read of a port `p` with
`p &&& offMask = offSelect` switches it off; only a reset switches it on again (R586). -/
structure Overlay where
  active : Bool
  regions : List Region
  offMask : Word
  offSelect : Word
deriving DecidableEq, Repr

/-! ## Z80-PIO -/

/-- The four modes of a PIO port (R485, R487): mode 0, 1, 2, 3. -/
inductive PioMode where
  | output
  | input
  | bidirectional
  | bitControl
deriving DecidableEq, Repr

/-- Which word the next control write of a PIO port is (R481, R484). -/
inductive PioExpect where
  | nothing
  | ioSelect
  | mask
deriving DecidableEq, Repr

/-- One PIO port (R481), with its ready output and the levels of its eight lines as the peripheral drives them (R485). -/
structure PioPort where
  inReg : Byte
  outReg : Byte
  mode : PioMode
  ioSelect : Byte
  mask : Byte
  andOr : Bool
  highLow : Bool
  intEnable : Bool
  vector : Byte
  expect : PioExpect
  pending : Bool
  underService : Bool
  ready : Bool
  lines : Byte
deriving DecidableEq, Repr

/-- A PIO: port A, then port B (R481). `inReset` says that the chip is in its reset state, where it stays until it gets a control
word (R483). -/
structure Pio where
  a : PioPort
  b : PioPort
  inReset : Bool
deriving DecidableEq, Repr

/-! ## Z80-SIO -/

/-- A character on the serial line as it arrives: its bits, the parity bit after them, and whether the stop bit was at its level
(R500). -/
structure SioChar where
  data : Byte
  parityBit : Bool
  stopBit : Bool
deriving DecidableEq, Repr

/-- A character as it leaves a transmitter (R500, R509): its bits and their number, the parity bit if there is one, the stop time in
half bits, and the clocks per bit. -/
structure SioFrame where
  data : Byte
  bits : Nat
  parityBit : Option Bool
  stopHalfBits : Nat
  clockFactor : Nat
deriving DecidableEq, Repr

/-- What leaves a transmitter (R500, R502, R509): a character; the CRC register, where it runs empty in a synchronous mode; sync
characters; or the flag of SDLC. -/
inductive SioSent where
  | char (frame : SioFrame)
  | crc (w : Word)
  | sync (chars : List Byte)
  | flag
deriving DecidableEq, Repr

/-- The format of a channel (R500, R509): asynchronous, 8-bit sync (monosync), 16-bit sync (bisync), SDLC and HDLC, external sync. -/
inductive SioFormat where
  | async
  | monosync
  | bisync
  | sdlc
  | external
deriving DecidableEq, Repr

/-- One SIO channel: the register pointer and the write registers (R504 to R510), the characters received and not yet read, the
character to be sent (R502), the errors and the break found by the receiver and the two CRC registers (R500), the latch of the
CRC and sync characters (R505), what the receiver does in a synchronous mode (R500, R501, R509: it looks for synchronisation, the
first of two sync characters has come, an SDLC frame is open, one has ended, the last CRC check found an error), the three kinds of
interrupt request (R512), the modem inputs and SYNC, the RTS and DTR outputs and whether the transmitter is open (R501, R503). Write
register 2 is used in channel B only (R507). -/
structure SioChannel where
  ptr : BitVec 3
  wr1 : Byte
  wr2 : Byte
  wr3 : Byte
  wr4 : Byte
  wr5 : Byte
  wr6 : Byte
  wr7 : Byte
  received : List Byte
  sending : Option Byte
  parityError : Bool
  framingError : Bool
  overrun : Bool
  breakOn : Bool
  rxCrc : Word
  txCrc : Word
  crcSyncLatch : Bool
  hunting : Bool
  syncHalf : Bool
  inFrame : Bool
  endOfFrame : Bool
  crcError : Bool
  rxPending : Bool
  txPending : Bool
  extPending : Bool
  underService : Bool
  firstArmed : Bool
  transmitOn : Bool
  rts : Bool
  dtr : Bool
  cts : Bool
  dcd : Bool
  sync : Bool
deriving DecidableEq, Repr

/-- An SIO: channel A, then channel B (R500). -/
structure Sio where
  a : SioChannel
  b : SioChannel
deriving DecidableEq, Repr

/-! ## Z80-CTC -/

/-- One CTC channel (R525). In `tc` and `down` the value 0 means 256; `hasTc` says that a time constant has been written
(R530); `armed` that a timer waits for its trigger (R529). -/
structure CtcChannel where
  ctrl : Byte
  tc : Byte
  down : Byte
  presc : Byte
  expectTc : Bool
  hasTc : Bool
  running : Bool
  armed : Bool
  pending : Bool
  underService : Bool
deriving DecidableEq, Repr

/-- A CTC: channels 0 to 3 and the vector register, of which bits 7 to 3 count (R525, R536). -/
structure Ctc where
  ch0 : CtcChannel
  ch1 : CtcChannel
  ch2 : CtcChannel
  ch3 : CtcChannel
  vector : Byte
deriving DecidableEq, Repr

/-! ## Z80-DMA -/

/-- The class of a DMA operation (R542, R545); `unset` before a word 1A has been written. -/
inductive DmaClass where
  | unset
  | transfer
  | search
  | searchTransfer
deriving DecidableEq, Repr

/-- The mode of a DMA operation (R542, R548). -/
inductive DmaMode where
  | byteAtATime
  | continuous
  | burst
  | transparent
deriving DecidableEq, Repr

/-- A parameter byte that a command word has announced (R544 to R552). -/
inductive DmaParam where
  | startALow
  | startAHigh
  | lengthLow
  | lengthHigh
  | timingA
  | timingB
  | maskByte
  | matchByte
  | startBLow
  | startBHigh
  | intControl
  | pulseCount
  | vector
  | readMask
deriving DecidableEq, Repr

/-- One port of a DMA: memory or I/O, how its address moves, its timing byte, start address and address counter
(R540, R546, R553). -/
structure DmaPort where
  io : Bool
  fixed : Bool
  increment : Bool
  timing : Byte
  start : Word
  addr : Word
deriving DecidableEq, Repr

/-- A DMA (R540 to R555). Its recorded interrupts are kept by cause (R552): `rdyPending` the one before the bus request,
`matchPending`, `endPending`; `rdyService` says that the interrupt before the bus request is being served, `announced` that it
has been made for the bus request to come. `paused` says that the CPU must have a machine cycle before the chip asks again (after each byte of a
byte at a time operation, after the block of a continuous or burst one), `holding` that a
continuous or burst one still has it, `loaded` that the address counters hold their start addresses or what came of them, and
`readLeft` holds the registers that the current round of reads has not returned yet (R551). -/
structure Dma where
  enabled : Bool
  intEnabled : Bool
  dmaClass : DmaClass
  mode : DmaMode
  aToB : Bool
  portA : DmaPort
  portB : DmaPort
  blockLength : Word
  byteCounter : Word
  matchByte : Byte
  maskByte : Byte
  stopOnMatch : Bool
  intControl : Byte
  pulseCount : Byte
  vector : Byte
  readyHigh : Bool
  readyLine : Bool
  ceWait : Bool
  autoRestart : Bool
  forceReady : Bool
  waitReti : Bool
  endOfBlock : Bool
  matchFound : Bool
  loaded : Bool
  rdyPending : Bool
  matchPending : Bool
  endPending : Bool
  underService : Bool
  rdyService : Bool
  expecting : List DmaParam
  readMask : Byte
  readLeft : Byte
  statusNext : Bool
  paused : Bool
  holding : Bool
  announced : Bool
deriving DecidableEq, Repr

/-! ## The board -/

/-- A chip of the board, by its kind and its place in the list of its kind. -/
inductive ChipId where
  | pio (n : Nat)
  | sio (n : Nat)
  | ctc (n : Nat)
  | dma (n : Nat)
deriving DecidableEq, Repr

/-- A unit that can interrupt, with its fixed place inside its chip (R560). -/
inductive IntUnit where
  | pio (n : Nat) (portB : Bool)
  | sio (n : Nat) (channelB : Bool)
  | ctc (n : Nat) (channel : Nat)
  | dma (n : Nat)
deriving DecidableEq, Repr

/-- What a port number reaches (R71, R482, R502, R526, R541): a device of the host's own, or a location of a chip. -/
inductive PortTarget where
  | external
  | pio (n : Nat) (control portB : Bool)
  | sio (n : Nat) (control channelB : Bool)
  | ctc (n : Nat) (channel : Nat)
  | dma (n : Nat)
deriving DecidableEq, Repr

/-- One device on the I/O bus: it answers at every port `p` with `p &&& mask = select` (R71). -/
structure PortEntry where
  mask : Word
  select : Word
  target : PortTarget
deriving DecidableEq, Repr

/-- A wire of the board from the WAIT/READY output of an SIO channel, active low, to the RDY input of a DMA (R501, R541). -/
structure ReadyWire where
  dma : Nat
  sio : Nat
  channelB : Bool
deriving DecidableEq, Repr

/-- What leaves the machine (R470): I/O cycles, the accesses of memory-mapped devices, the RETI notification, acknowledges, bus
grants, and what the chips do outside. -/
inductive BusEvent where
  | ioWrite (port : Word) (v : Byte)
  | ioRead (port : Word) (v : Byte)
  | memWrite (addr : Word) (v : Byte)
  | memRead (addr : Word) (v : Byte)
  | reti
  | intAck (v : Byte)
  | busGrant
  | ctcZero (n : Nat) (channel : Nat)
  | sioSend (n : Nat) (channelB : Bool) (what : SioSent)
  | sioCommand (n : Nat) (channelB : Bool) (v : Byte)
  | dmaByte (n : Nat) (v : Byte)
  | dmaPulse (n : Nat)
deriving DecidableEq, Repr

/-- The board around the CPU: the platform parameters of R2 and R7 as data, the content of memory, whether its guarded part is
protected (R558), the chips, what the host's own devices will answer in the I/O space and in memory space, the log of what left
the machine (newest first), and the count of free values drawn in events (DESIGN CHOICE, log entry 4). -/
structure Board where
  mem : Memory
  memmap : List Region
  overlay : Option Overlay
  ramGuard : Bool
  iomap : List PortEntry
  pios : List Pio
  sios : List Sio
  ctcs : List Ctc
  dmas : List Dma
  chain : List ChipId
  readyWires : List ReadyWire
  portIn : List Byte
  memIn : List Byte
  log : List BusEvent
  draws : Nat
deriving DecidableEq, Repr

/-! ## What the host supplies -/

/-- What a peripheral or the board does to a chip between two bus cycles (R470, R485, R501, R527, R541, R558). -/
inductive ChipEvent where
  /-- a strobe of a PIO port; `v` is what the peripheral drives -/
  | pioStrobe (n : Nat) (portB : Bool) (v : Byte)
  /-- new levels on the lines of a PIO port -/
  | pioLines (n : Nat) (portB : Bool) (v : Byte)
  /-- power-on, or the M1 pulse that resets a PIO (R483) -/
  | pioReset (n : Nat)
  /-- a character has arrived -/
  | sioReceive (n : Nat) (channelB : Bool) (c : SioChar)
  /-- the line carries a break, or its end -/
  | sioBreak (n : Nat) (channelB : Bool) (on : Bool)
  /-- the line carries a flag of SDLC, or (with `abort`) an abort of the frame -/
  | sioFlag (n : Nat) (channelB : Bool) (abort : Bool)
  /-- the transmitter is ready to send what comes next -/
  | sioSent (n : Nat) (channelB : Bool)
  /-- new levels on CTS, DCD and SYNC (true is active) -/
  | sioModem (n : Nat) (channelB : Bool) (cts dcd sync : Bool)
  /-- the RESET input of an SIO -/
  | sioReset (n : Nat)
  /-- system clock periods -/
  | ctcClocks (n : Nat) (count : Nat)
  /-- an edge on a CLK/TRG input -/
  | ctcEdge (n : Nat) (channel : Nat) (rising : Bool)
  /-- the RESET input of a CTC -/
  | ctcReset (n : Nat)
  /-- a new level on RDY -/
  | dmaReady (n : Nat) (level : Bool)
  /-- power-on or reset of a DMA (R544) -/
  | dmaReset (n : Nat)
  /-- the write protection of the guarded RAM goes on or off (R558) -/
  | ramGuard (on : Bool)
deriving DecidableEq, Repr

/-- An access of an external bus master while it has the bus (R460). A read of memory matters where a device answers. -/
inductive MasterAccess where
  | memRead (addr : Word)
  | memWrite (addr : Word) (v : Byte)
  | ioRead (port : Word)
  | ioWrite (port : Word) (v : Byte)
deriving DecidableEq, Repr

/-- What happens between two machine cycles of one instruction (R78, R460, R580, D23): peripherals act, RESET may be asserted, the
external master may get the bus, and DMA chips of the board that ask for the bus may move up to `dmaBytes` bytes. -/
structure Gap where
  events : List ChipEvent
  reset : Bool
  busrq : Bool
  master : List MasterAccess
  dmaBytes : Nat
deriving DecidableEq, Repr

/-- A gap in which nothing happens. -/
def Gap.quiet : Gap := { events := [], reset := false, busrq := false, master := [], dmaBytes := 0 }

/-- The host's inputs for one boundary and the step after it (R470): the lines, the bytes an acknowledge will find on the bus (first
the vector or instruction, then its operands), what the peripherals do, the accesses of the other bus master, and what falls
between the machine cycles of the step, in their order; a missing gap is quiet. -/
structure Input where
  reset : Bool
  busrq : Bool
  nmi : Bool
  int : Bool
  ack : List Byte
  events : List ChipEvent
  master : List MasterAccess
  between : List Gap
deriving DecidableEq, Repr

/-- A boundary at which nothing happens: all lines at rest. -/
def Input.quiet : Input :=
  { reset := false, busrq := false, nmi := false, int := false, ack := [], events := [], master := [], between := [] }

end Sys2Proof.Machine
end

