-- ==== Sys2Proof/Machine/State.lean ====
section
/-! DEFINITION. The state of the machine as plain data (R20, R470), the ways a step can stop, and the state after reset. Every field
is listed in INVENTORY.md with the rule that names it. -/

namespace Sys2Proof.Machine

/-- Why the machine stops with a fault. The Z80 itself never does (R420). -/
inductive Fault where
  /-- Raised by `step` when the bytes at PC are an encoding for which the source defines no behaviour: UnspecifiedOpcode
  (R10, R118, D1, D15). Safe: the hardware goes on, the model stops. -/
  | unspecifiedOpcode (bytes : List Byte)
deriving DecidableEq, Repr

/-- Why a step is refused: a duty of the host is broken, or a PIO is given a word that file 93 has a device model refuse. -/
inductive Refusal where
  /-- Raised by `exec` for an instruction without a meaning in this model. Safe. -/
  | notModelled (mnemonic : String)
  /-- Raised by `step`: in mode 0 the acknowledge delivered a byte other than RST p or CALL (R437, D11). Safe. -/
  | mode0InstructionNotRstOrCall (v : Byte)
  /-- Raised by `step`: in mode 0 the acknowledge delivered a CALL without its two operand bytes (R437, R470). Safe. -/
  | mode0CallWithoutOperands
  /-- Raised by `step`: in mode 2 the acknowledge delivered an odd vector (R440, D12). Safe. -/
  | oddMode2Vector (v : Byte)
  /-- Raised by `step`: the input lists accesses of a bus master at a boundary, or between two machine cycles, where the bus is not
  granted to it (R470). Safe. -/
  | masterWithoutBus
  /-- Raised by an I/O write: a PIO control word with a low nibble that the source does not describe (R484). Safe. -/
  | pioControlWord (v : Byte)
  /-- Raised by an I/O write: mode 2 for PIO port B, which is not allowed (R487). Safe. -/
  | pioPortBBidirectional
deriving DecidableEq, Repr

/-- The eight bits of F (R30), from bit 7 to bit 0; bits 5 and 3 have no meaning of their own (R31). -/
structure Flags where
  s : Bool
  z : Bool
  f5 : Bool
  h : Bool
  f3 : Bool
  pv : Bool
  n : Bool
  c : Bool
deriving DecidableEq, Repr

/-- One of the two register sets: A, F and the six general registers (R20, R22). -/
structure RegFile where
  a : Byte
  f : Flags
  b : Byte
  c : Byte
  d : Byte
  e : Byte
  h : Byte
  l : Byte
deriving DecidableEq, Repr

/-- The interrupt mode IM (R41). -/
inductive IntMode where
  | im0
  | im1
  | im2
deriving DecidableEq, Repr

/-- The state of the machine: the CPU state of R20, the board around it, and the model's own fields (the host's inputs still to
come, what falls between the machine cycles of the step, and the counter that free values are drawn by). -/
structure State where
  /-- the registers in use: A, F, B, C, D, E, H, L (R21) -/
  regs : RegFile
  /-- the alternate set: A', F', B', C', D', E', H', L' (R22) -/
  alt : RegFile
  /-- index register IX (R29) -/
  ix : Word
  /-- index register IY (R29) -/
  iy : Word
  /-- stack pointer (R28) -/
  sp : Word
  /-- program counter (R26) -/
  pc : Word
  /-- interrupt vector register (R39) -/
  i : Byte
  /-- refresh register (R38) -/
  r : Byte
  /-- interrupt enable flip-flop (R40) -/
  iff1 : Bool
  /-- the copy of IFF1 kept over a non-maskable interrupt (R40) -/
  iff2 : Bool
  /-- interrupt mode (R41) -/
  im : IntMode
  /-- an NMI edge is waiting (R42) -/
  nmiPending : Bool
  /-- the last instruction was EI (R43) -/
  eiDelay : Bool
  /-- the HALT state (R44) -/
  halted : Bool
  /-- memory, maps, chips, log (R60 to R71, 61) -/
  board : Board
  /-- the host's inputs for the coming boundaries, oldest first; none left means quiet (R470, DESIGN CHOICE, log entry 5) -/
  inputs : List Input
  /-- what the host lets happen between the machine cycles of the step that runs, in their order; none left means nothing (R78,
  D23, DESIGN CHOICE, log entry 6) -/
  gaps : List Gap
  /-- the number of steps taken, which the free values are applied to (DESIGN CHOICE, log entry 4) -/
  tick : Nat
deriving DecidableEq, Repr

/-- All eight flags at zero. -/
def Flags.zero : Flags :=
  { s := false, z := false, f5 := false, h := false, f3 := false, pv := false, n := false, c := false }

/-- A register set at zero: the value chosen where the spec gives none (R47, DESIGN CHOICE, log entry 1). -/
def RegFile.zero : RegFile :=
  { a := 0#8, f := Flags.zero, b := 0#8, c := 0#8, d := 0#8, e := 0#8, h := 0#8, l := 0#8 }

/-- The platform of `State.reset`: 64 KB of RAM, no device (DESIGN CHOICE, log entry 3). -/
def Board.flatRam : Board :=
  { mem := []
    memmap := [{ mask := 0x0000#16, select := 0x0000#16, kind := .ram, base := 0, within := 0xFFFF#16 }]
    overlay := none, ramGuard := false, iomap := [], pios := [], sios := [], ctcs := [], dmas := [], chain := []
    readyWires := [], portIn := [], memIn := [], log := [], draws := 0 }

/-- The machine right after reset: PC, I, R, the flip-flops, IM and the latches are those of R47 and R580; the registers the spec
leaves open are zero (DESIGN CHOICE, log entry 1) and so is the platform's choice (DESIGN CHOICE, log entry 3). -/
def State.reset : State :=
  { regs := RegFile.zero, alt := RegFile.zero, ix := 0x0000#16, iy := 0x0000#16, sp := 0x0000#16
    pc := 0x0000#16, i := 0x00#8, r := 0x00#8, iff1 := false, iff2 := false, im := .im0
    nmiPending := false, eiDelay := false, halted := false
    board := Board.flatRam, inputs := [], gaps := [], tick := 0 }

end Sys2Proof.Machine
end

