-- ==== Sys2Proof/Machine/Ctc.lean ====
section
/-! DEFINITION. The Z80-CTC (R525 to R538). -/

namespace Sys2Proof.Machine

/-- A channel after reset, with the values the spec leaves open at zero (R527, DESIGN CHOICE, log entry 1). -/
def CtcChannel.powerOn : CtcChannel :=
  { ctrl := 0#8, tc := 0#8, down := 0#8, presc := 0#8, expectTc := false, hasTc := false
    running := false, armed := false, pending := false, underService := false }

/-- A CTC after reset. -/
def Ctc.powerOn : Ctc :=
  { ch0 := CtcChannel.powerOn, ch1 := CtcChannel.powerOn, ch2 := CtcChannel.powerOn, ch3 := CtcChannel.powerOn
    vector := 0#8 }

/-- The RESET input at a channel (R527): it stops and its interrupt enable bit is cleared; the rest of the control register, the
time constant and the counters take free values. That it waits for no word or trigger and that a recorded request and the service in
progress are dropped is the model's (DESIGN CHOICE, log entry 20). -/
def CtcChannel.chipReset (free : Nat → Byte) : CtcChannel :=
  { ctrl := free 0 &&& 0x7F#8, tc := free 1, down := free 2, presc := free 3, expectTc := false, hasTc := false
    running := false, armed := false, pending := false, underService := false }

/-- The RESET input of the chip (R527). -/
def Ctc.chipReset (free : Nat → Byte) : Ctc :=
  { ch0 := CtcChannel.chipReset free, ch1 := CtcChannel.chipReset (fun k => free (k + 4))
    ch2 := CtcChannel.chipReset (fun k => free (k + 8)), ch3 := CtcChannel.chipReset (fun k => free (k + 12))
    vector := free 16 &&& 0xF8#8 }

/-- One channel of the chip; the select inputs have two bits (R526). -/
def Ctc.channel (p : Ctc) (k : Nat) : CtcChannel :=
  match k with
  | 0 => p.ch0
  | 1 => p.ch1
  | 2 => p.ch2
  | _ => p.ch3

/-- The chip with one channel replaced. -/
def Ctc.setChannel (p : Ctc) (k : Nat) (c : CtcChannel) : Ctc :=
  match k with
  | 0 => { p with ch0 := c }
  | 1 => { p with ch1 := c }
  | 2 => { p with ch2 := c }
  | _ => { p with ch3 := c }

/-- D6: counter mode (R529). -/
def CtcChannel.counterMode (c : CtcChannel) : Bool := c.ctrl.getLsbD 6

/-- The prescaler's divisor: 256 with D5, else 16 (R529). -/
def CtcChannel.divisor (c : CtcChannel) : Nat := if c.ctrl.getLsbD 5 then 256 else 16

/-- The time constant of a channel arrives (R530). A channel that runs takes it at its next reload; one that stands loads its
down counter and starts, a timer with D3 = 1 only when its trigger comes (R529). -/
def CtcChannel.writeTc (c : CtcChannel) (w : Byte) : CtcChannel :=
  if c.running then { c with tc := w, expectTc := false, hasTc := true }
  else
    let waits := !c.counterMode && c.ctrl.getLsbD 3
    { c with tc := w, expectTc := false, hasTc := true, down := w, presc := 0#8, running := !waits, armed := waits }

/-- A channel control word (R528, R529); D1 stops the channel and drops its request (R471). Without D1 and D2 a timer that waits for
its trigger goes on waiting, whatever the word makes of D3 and D6 (DESIGN CHOICE, log entry 18). -/
def CtcChannel.writeControl (c : CtcChannel) (w : Byte) : CtcChannel :=
  { c with
    ctrl := w
    expectTc := w.getLsbD 2
    running := if w.getLsbD 1 then false else c.running
    armed := if w.getLsbD 1 then false else c.armed
    pending := if w.getLsbD 1 then false else c.pending }

/-- A write to a channel's location, told apart as R528 says: time constant, control word or vector. -/
def Ctc.write (p : Ctc) (k : Nat) (w : Byte) : Ctc :=
  let c := p.channel k
  if c.expectTc then p.setChannel k (c.writeTc w)
  else if w.getLsbD 0 then p.setChannel k (c.writeControl w)
  else { p with vector := w &&& 0xF8#8 }

/-- One count of the down counter (R531, R532): at zero it reloads, and with D7 requests an interrupt. The second part says whether
ZC/TO pulsed (R534). -/
def CtcChannel.count (c : CtcChannel) : CtcChannel × Bool :=
  if c.down - 1#8 = 0#8 then
    ({ c with down := c.tc, pending := c.pending || c.ctrl.getLsbD 7 }, true)
  else ({ c with down := c.down - 1#8 }, false)

/-- One period of the system clock (R531): a running timer's prescaler advances and, at its divisor, counts. -/
def CtcChannel.clock (c : CtcChannel) : CtcChannel × Bool :=
  if c.running && !c.counterMode then
    if (c.presc.toNat + 1) % c.divisor = 0 then { c with presc := 0#8 }.count
    else ({ c with presc := c.presc + 1#8 }, false)
  else (c, false)

/-- An edge on CLK/TRG (R529, R532): the active one counts in counter mode, and starts a timer that waits for its trigger. -/
def CtcChannel.edge (c : CtcChannel) (rising : Bool) : CtcChannel × Bool :=
  if rising = c.ctrl.getLsbD 4 then
    if c.counterMode then (if c.running then c.count else (c, false))
    else if c.armed then ({ c with armed := false, running := true }, false)
    else (c, false)
  else (c, false)

/-- The channel requests an interrupt (R535). -/
def CtcChannel.requests (c : CtcChannel) : Bool := c.pending && c.ctrl.getLsbD 7

/-- The vector delivered for a channel: V7 to V3, the channel's number, 0 (R536). -/
def Ctc.delivered (p : Ctc) (k : Nat) : Byte := (p.vector &&& 0xF8#8) ||| BitVec.ofNat 8 (2 * (k % 4))

/-- The channel whose request is acknowledged (R560). -/
def CtcChannel.acknowledge (c : CtcChannel) : CtcChannel := { c with pending := false, underService := true }

end Sys2Proof.Machine
end

