-- ==== Sys2Proof/Machine/Dma.lean ====
section
/-! DEFINITION. The Z80-DMA as a programmed chip (R540 to R555): its command words, its parameter bytes, what it reads back, and the
arithmetic of one transferred byte. The bus accesses of an operation are in Bus. -/

namespace Sys2Proof.Machine

/-- A port of the chip with nothing programmed (DESIGN CHOICE, log entry 1). -/
def DmaPort.powerOn : DmaPort :=
  { io := false, fixed := false, increment := false, timing := 0#8, start := 0#16, addr := 0#16 }

/-- A DMA after power-on or reset: disabled, no interrupts (R544); what the spec leaves open is zero (DESIGN CHOICE, log entry 1). -/
def Dma.powerOn : Dma :=
  { enabled := false, intEnabled := false, dmaClass := .unset, mode := .byteAtATime, aToB := false
    portA := DmaPort.powerOn, portB := DmaPort.powerOn, blockLength := 0#16, byteCounter := 0#16
    matchByte := 0#8, maskByte := 0#8, stopOnMatch := false, intControl := 0#8, pulseCount := 0#8, vector := 0#8
    readyHigh := false, readyLine := false, ceWait := false, autoRestart := false, forceReady := false
    waitReti := false, endOfBlock := false, matchFound := false, loaded := false
    rdyPending := false, matchPending := false, endPending := false, underService := false, rdyService := false
    expecting := [], readMask := 0#8, readLeft := 0#8, statusNext := false
    paused := false, holding := false, announced := false }

/-- No interrupt is recorded or served (R550, "reset" and "reset int"). -/
def Dma.clearInterrupts (d : Dma) : Dma :=
  { d with
    intEnabled := false, rdyPending := false, matchPending := false, endPending := false, underService := false
    rdyService := false }

/-- The chip's reset as an event (R544): it can neither ask for the bus nor interrupt, and expects a command word. What was
programmed stays, since the spec does not say that it is lost. R544 is silent on the rest too: the status bits end of block, match and
write address valid stay as they are and so does FORCE READY, a waiting for a RETI ends, a selected status read is dropped and the
round of reads begins again (DESIGN CHOICE, log entry 10). -/
def Dma.chipReset (d : Dma) : Dma :=
  { d.clearInterrupts with
    enabled := false, waitReti := false, expecting := [], readLeft := 0#8, statusNext := false
    paused := false, holding := false, announced := false }

/-- The parameter byte with a number; any number names one. -/
def dmaParamOf (k : Nat) : DmaParam :=
  match k % 14 with
  | 0 => .startALow
  | 1 => .startAHigh
  | 2 => .lengthLow
  | 3 => .lengthHigh
  | 4 => .timingA
  | 5 => .timingB
  | 6 => .maskByte
  | 7 => .matchByte
  | 8 => .startBLow
  | 9 => .startBHigh
  | 10 => .intControl
  | 11 => .pulseCount
  | 12 => .vector
  | _ => .readMask

/-- A port of which nothing is known but that it is one. -/
def dmaPortOf (free : Nat → Byte) : DmaPort :=
  { io := (free 0).getLsbD 0, fixed := (free 0).getLsbD 1, increment := (free 0).getLsbD 2, timing := free 1
    start := word (free 2) (free 3), addr := word (free 4) (free 5) }

/-- The chip after a word 2D that R550 does not list: the spec gives the word no effect to follow, so every register is free, and so
is how many parameter bytes follow; the level on the RDY pin is the peripheral's (DESIGN CHOICE, log entry 13). -/
def Dma.unknownCommand (d : Dma) (free : Nat → Byte) : Dma :=
  let bit := fun k => (free (k / 8)).getLsbD (k % 8)
  { enabled := bit 0, intEnabled := bit 1, dmaClass := if bit 2 then (if bit 3 then .unset else .transfer) else
      (if bit 3 then .search else .searchTransfer)
    mode := if bit 4 then (if bit 5 then .byteAtATime else .continuous) else (if bit 5 then .burst else .transparent)
    aToB := bit 6, portA := dmaPortOf fun k => free (10 + k), portB := dmaPortOf fun k => free (20 + k)
    blockLength := word (free 30) (free 31), byteCounter := word (free 32) (free 33), matchByte := free 34
    maskByte := free 35, stopOnMatch := bit 7, intControl := free 36, pulseCount := free 37, vector := free 38
    readyHigh := bit 8, readyLine := d.readyLine, ceWait := bit 9, autoRestart := bit 10, forceReady := bit 11
    waitReti := bit 12, endOfBlock := bit 13, matchFound := bit 14, loaded := bit 15, rdyPending := bit 16
    matchPending := bit 17, endPending := bit 18, underService := bit 19, rdyService := bit 20
    expecting := (List.range (free 39).toNat).map fun k => dmaParamOf (free (50 + k)).toNat
    readMask := free 40, readLeft := free 41, statusNext := bit 21, paused := bit 22, holding := bit 23
    announced := bit 24 }

/-- The parameter bytes that word 1A announces, in ascending order of its bits (R544, R545). -/
def paramsOf1A (w : Byte) : List DmaParam :=
  (if w.getLsbD 3 then [.startALow] else []) ++ (if w.getLsbD 4 then [.startAHigh] else []) ++
    (if w.getLsbD 5 then [.lengthLow] else []) ++ (if w.getLsbD 6 then [.lengthHigh] else [])

/-- The class of C1 C0 (R545); 00 marks word 1B. -/
def dmaClassOf (w : Byte) : DmaClass :=
  match w.getLsbD 1, w.getLsbD 0 with
  | false, false => .unset
  | false, true => .transfer
  | true, false => .search
  | true, true => .searchTransfer

/-- The mode of D6 D5 of word 2B (R548). -/
def dmaModeOf (w : Byte) : DmaMode :=
  match w.getLsbD 6, w.getLsbD 5 with
  | false, false => .byteAtATime
  | false, true => .continuous
  | true, false => .burst
  | true, true => .transparent

/-- Word 1A: class, direction, and the parameters that follow (R545). -/
def Dma.word1A (d : Dma) (w : Byte) : Dma :=
  { d with dmaClass := dmaClassOf w, aToB := w.getLsbD 2, expecting := paramsOf1A w }

/-- What word 1B says of its port (R546). -/
def DmaPort.word1B (p : DmaPort) (w : Byte) : DmaPort :=
  { p with io := w.getLsbD 3, increment := w.getLsbD 4, fixed := w.getLsbD 5 }

/-- Word 1B: D2 = 1 programs port A, D2 = 0 port B (R546, C27). -/
def Dma.word1B (d : Dma) (w : Byte) : Dma :=
  if w.getLsbD 2 then
    { d with portA := d.portA.word1B w, expecting := if w.getLsbD 6 then [.timingA] else [] }
  else
    { d with portB := d.portB.word1B w, expecting := if w.getLsbD 6 then [.timingB] else [] }

/-- Word 2A: stop on match, mask and match bytes, interrupt enable, chip enable (R547); a chip that it disables gives the bus back. -/
def Dma.word2A (d : Dma) (w : Byte) : Dma :=
  { d with
    stopOnMatch := w.getLsbD 2, intEnabled := w.getLsbD 5, enabled := w.getLsbD 6, holding := d.holding && w.getLsbD 6
    expecting := (if w.getLsbD 3 then [.maskByte] else []) ++ (if w.getLsbD 4 then [.matchByte] else []) }

/-- Word 2B: mode, port B address, interrupt control (R548). An operation that another master switches over while it has the bus gives it
back, and asks for it anew in the new mode (DESIGN CHOICE, log entry 10). -/
def Dma.word2B (d : Dma) (w : Byte) : Dma :=
  { d with
    mode := dmaModeOf w, holding := false
    expecting := (if w.getLsbD 2 then [.startBLow] else []) ++ (if w.getLsbD 3 then [.startBHigh] else []) ++
      (if w.getLsbD 4 then [.intControl] else []) }

/-- Word 2C: active level of RDY, CE/WAIT, automatic restart (R549). -/
def Dma.word2C (d : Dma) (w : Byte) : Dma :=
  { d with readyHigh := w.getLsbD 3, ceWait := w.getLsbD 4, autoRestart := w.getLsbD 5 }

/-- Load: the byte counter to zero, both address counters to the start addresses (R540, R550), so that no operation has begun. -/
def Dma.load (d : Dma) : Dma :=
  { d with
    byteCounter := 0#16, portA := { d.portA with addr := d.portA.start }, portB := { d.portB with addr := d.portB.start }
    loaded := true, announced := false, holding := false }

/-- The sixteen commands of word 2D (R550); after any other word the chip's registers are free. B7 makes the chip wait for a RETI and
leaves its enable as it is; C3 does not end that waiting, and keeps the status bits, FORCE READY, a selected status read and the round
of reads; BF selects the status for one read only, as A7 does; 87 goes on from where the counters stand; on all of this R550 is silent
(DESIGN CHOICE, log entry 10). -/
def Dma.command (free : Nat → Byte) (d : Dma) (w : Byte) : Dma :=
  match w.toNat with
  | 0xC3 => { d.clearInterrupts with enabled := false, paused := false, holding := false, announced := false }
  | 0xC7 => { d with portA := { d.portA with timing := 0#8 } }
  | 0xCB => { d with portB := { d.portB with timing := 0#8 } }
  | 0xCF => d.load
  | 0xD3 => { d with byteCounter := 0#16 }
  | 0xAB => { d with intEnabled := true }
  | 0xAF => { d with intEnabled := false }
  | 0xA3 => d.clearInterrupts
  | 0x87 => { d with enabled := true }
  | 0x83 => { d with enabled := false, holding := false }
  | 0xBB => { d with expecting := [.readMask] }
  | 0xA7 => { d with statusNext := true }
  | 0xBF => { d with statusNext := true }
  | 0xB3 => { d with forceReady := true }
  | 0xB7 => { d with waitReti := true }
  | 0x8B => { d with matchFound := false, endOfBlock := false }
  | _ => d.unknownCommand free

/-- A parameter byte takes its place (R545 to R554); the interrupt control word may announce two more (R552). -/
def Dma.parameter (d : Dma) (what : DmaParam) (w : Byte) : Dma :=
  match what with
  | .startALow => { d with portA := { d.portA with start := word (hi d.portA.start) w } }
  | .startAHigh => { d with portA := { d.portA with start := word w (lo d.portA.start) } }
  | .lengthLow => { d with blockLength := word (hi d.blockLength) w }
  | .lengthHigh => { d with blockLength := word w (lo d.blockLength) }
  | .timingA => { d with portA := { d.portA with timing := w } }
  | .timingB => { d with portB := { d.portB with timing := w } }
  | .maskByte => { d with maskByte := w }
  | .matchByte => { d with matchByte := w }
  | .startBLow => { d with portB := { d.portB with start := word (hi d.portB.start) w } }
  | .startBHigh => { d with portB := { d.portB with start := word w (lo d.portB.start) } }
  | .intControl =>
    { d with
      intControl := w
      expecting := (if w.getLsbD 3 then [.pulseCount] else []) ++ (if w.getLsbD 4 then [.vector] else []) ++ d.expecting }
  | .pulseCount => { d with pulseCount := w }
  | .vector => { d with vector := w }
  | .readMask => { d with readMask := w, readLeft := 0#8 }

/-- A write to the chip's one location: a parameter byte that is expected, or a command word (R541, R544). -/
def Dma.write (free : Nat → Byte) (d : Dma) (w : Byte) : Dma :=
  match d.expecting with
  | what :: rest => { d with expecting := rest }.parameter what w
  | [] =>
    if w.getLsbD 7 = false then
      if w &&& 0x03#8 = 0x00#8 then d.word1B w else d.word1A w
    else
      match (w &&& 0x03#8).toNat with
      | 0 => d.word2A w
      | 1 => d.word2B w
      | 2 => d.word2C w
      | _ => d.command free w

/-- RDY is taken as active (R541, R549, R550). -/
def Dma.ready (d : Dma) : Bool := d.forceReady || d.readyLine == d.readyHigh

/-- An interrupt is recorded (R552, R555). -/
def Dma.intPending (d : Dma) : Bool := d.rdyPending || d.matchPending || d.endPending

/-- The status byte (R555); the bits the spec does not describe are free. "Write address valid" is read as: the address counters have
been loaded (DEDUCED, log entry 10). -/
def Dma.status (d : Dma) (free : Byte) : Byte :=
  byteOfBits (free.getLsbD 7) (free.getLsbD 6) d.endOfBlock d.matchFound d.intPending (free.getLsbD 2) d.ready d.loaded

/-- The register that a bit of the read mask selects (R551). -/
def Dma.readable (d : Dma) (free : Byte) (bit : Nat) : Byte :=
  match bit with
  | 0 => d.status free
  | 1 => lo d.byteCounter
  | 2 => hi d.byteCounter
  | 3 => lo d.portA.addr
  | 4 => hi d.portA.addr
  | 5 => lo d.portB.addr
  | _ => hi d.portB.addr

/-- The registers still to be read: those that are left of the round, or a new round of all that the mask selects (R551). -/
def Dma.toRead (d : Dma) : Byte :=
  if d.readLeft &&& d.readMask &&& 0x7F#8 = 0#8 then d.readMask &&& 0x7F#8 else d.readLeft &&& d.readMask &&& 0x7F#8

/-- The lowest bit at 1 among bits 0 to 6. -/
def lowestBit (v : Byte) : Nat :=
  if v.getLsbD 0 then 0 else if v.getLsbD 1 then 1 else if v.getLsbD 2 then 2 else if v.getLsbD 3 then 3
  else if v.getLsbD 4 then 4 else if v.getLsbD 5 then 5 else 6

/-- The bit of the read mask whose register comes next: which of several it is, is not stated (R551). -/
def nextToRead (left : Byte) : Nat :=
  if Config.dmaReadNext left < 7 ∧ left.getLsbD (Config.dmaReadNext left) = true then Config.dmaReadNext left else lowestBit left

/-- A read of the chip (R550, R551): the status after RD status or reset RD; else one of the selected registers, each once before any
comes again (DESIGN CHOICE, log entry 10), in an order that is open; with none selected any value. The status is selected for ONE read,
also by RD status, and after it the round of reads goes on where it was, since R550 says neither that RD status lasts nor that reset
RD begins a new round (DESIGN CHOICE, log entry 10). -/
def Dma.read (d : Dma) (free : Byte) : Byte × Dma :=
  if d.statusNext then (d.status free, { d with statusNext := false })
  else if d.toRead = 0#8 then (free, d)
  else
    (d.readable free (nextToRead d.toRead), { d with readLeft := d.toRead &&& ~~~bitMask (nextToRead d.toRead) })

/-- The address counter of a port after one byte (R542, R546). -/
def DmaPort.advance (p : DmaPort) : DmaPort :=
  { p with addr := if p.fixed then p.addr else if p.increment then p.addr + 1#16 else p.addr - 1#16 }

/-- The byte equals the match byte in the compared positions (R554). -/
def Dma.matches (d : Dma) (v : Byte) : Bool := (v ^^^ d.matchByte) &&& ~~~d.maskByte == 0#8

/-- The class reads and compares (R542). -/
def Dma.searches (d : Dma) : Bool := d.dmaClass = .search ∨ d.dmaClass = .searchTransfer

/-- The class writes to the other port (R542). -/
def Dma.transfers (d : Dma) : Bool := d.dmaClass = .transfer ∨ d.dmaClass = .searchTransfer

/-- The chip after one byte `v` of its operation: counters, status, interrupts, and whether the operation goes on (R540, R542,
R549, R552). Where a match that stops falls on the last byte of a block with automatic restart, the restart wins (DESIGN CHOICE,
log entry 10). A match or an end of the block that the interrupt control word selects is recorded also while the chip's interrupts are
disabled, and requests once they are enabled (R550, R552, DESIGN CHOICE, log entry 10). A continuous or burst operation gives the bus
back to the CPU at the end of its block, also where it restarts by itself (R542): the repeat asks for the bus anew after a machine
cycle of the CPU, and needs RDY active (R549, DESIGN CHOICE, log entry 10). The end of an operation that does not restart clears the
chip's enable, so that another one needs 87H or a word 2A first (R540, DESIGN CHOICE, log entry 10). Where that comes after the end of a
block with neither LOAD nor CONTINUE before it, the byte counter already equals the block length and counts on past it, so that the
block ends again after 65,536 further bytes; R540 is silent on it (DESIGN CHOICE, log entry 10). -/
def Dma.afterByte (d : Dma) (v : Byte) : Dma :=
  let found := d.searches && d.matches v
  let counter := d.byteCounter + 1#16
  let ended := counter == d.blockLength
  let stops := ended || (found && (d.stopOnMatch || d.dmaClass = .searchTransfer))
  let moved : Dma :=
    { d with
      byteCounter := counter
      portA := if d.aToB || d.transfers then d.portA.advance else d.portA
      portB := if !d.aToB || d.transfers then d.portB.advance else d.portB
      matchFound := d.matchFound || found
      endOfBlock := d.endOfBlock || ended
      matchPending := d.matchPending || (found && d.intControl.getLsbD 1)
      endPending := d.endPending || (ended && d.intControl.getLsbD 0)
      enabled := if stops then ended && d.autoRestart else d.enabled
      announced := if stops then false else d.announced
      paused := d.mode = .byteAtATime || (ended && (d.mode = .continuous || d.mode = .burst))
      holding := !stops && (d.mode = .continuous || d.mode = .burst) }
  if ended && d.autoRestart then moved.load else moved

/-- When the byte that the chip now works on is done, the low byte of the counter equals the pulse count (R552, R555). -/
def Dma.pulses (d : Dma) : Bool := d.intControl.getLsbD 2 && lo (d.byteCounter + 1#16) == d.pulseCount

/-- The chip can work: enabled, a class set, and not waiting for a RETI (R542, R544, R550). -/
def Dma.able (d : Dma) : Bool := d.enabled && d.dmaClass != .unset && !d.waitReti

/-- An interrupt before the bus request is still to be made (R552). R552 does not say whether it comes before every bus request or
once: here it is made ONCE for each operation (`announced` falls with LOAD, with the end of the operation and with a reset only), and
while the chip's interrupts are disabled it is left out and the bus is asked for at once (DESIGN CHOICE, log entry 10). An operation that
has the bus does not ask for it, so none is made then (R542). -/
def Dma.announces (d : Dma) : Bool :=
  d.able && d.ready && d.intControl.getLsbD 6 && d.intEnabled && !d.announced && !d.holding

/-- The operation that had the bus does not have it any longer: a burst whose RDY is inactive, and a chip that cannot work (R542, R543). -/
def Dma.letGo (d : Dma) : Dma :=
  { d with holding := d.holding && d.able && (d.ready || d.mode != .burst) }

/-- A DMA looks at its RDY input: a burst gives the bus back without it (R542), and a chip whose programme says so makes its interrupt
request before it asks for the bus (R552). -/
def Dma.poll (d : Dma) : Dma :=
  if d.announces then { d.letGo with rdyPending := true, announced := true } else d.letGo

/-- Its interrupt before the bus request has been made and is not over yet (R552, DESIGN CHOICE, log entry 10). The interrupts of a
match or of the end of a block do not hold it back, and an operation that has the bus keeps it (R542). -/
def Dma.announcing (d : Dma) : Bool := d.announced && d.intEnabled && (d.rdyPending || d.rdyService) && !d.holding

/-- The chip asks for the bus (R543). A continuous operation that has begun and still has the bus holds it whatever RDY says (R542),
and it MOVES BYTES also while RDY is inactive: R542 does not say whether it moves them then or waits with the bus held (DESIGN CHOICE,
log entry 10). A byte at a time operation gives the bus back after each byte. -/
def Dma.wantsBus (d : Dma) : Bool :=
  d.able && (d.ready || (d.holding && d.mode == .continuous)) && !d.paused && !d.announces && !d.announcing

/-- The chip requests an interrupt (R547, R550, R552). -/
def Dma.requests (d : Dma) : Bool := d.intPending && d.intEnabled

/-- The vector delivered: bits 2 and 1 show the causes where D4 and D5 (SAI) of the interrupt control word are both 1, the condition
as the source prints it (R552, DESIGN CHOICE, log entry 10); all causes that are recorded show together. -/
def Dma.delivered (d : Dma) : Byte :=
  if d.intControl.getLsbD 4 && d.intControl.getLsbD 5 then
    (d.vector &&& 0xF9#8) ||| byteOfBits false false false false false d.endPending d.matchPending false
  else d.vector

/-- The chip whose request is acknowledged (R560). -/
def Dma.acknowledge (d : Dma) : Dma :=
  { d with rdyPending := false, matchPending := false, endPending := false, underService := true, rdyService := d.rdyPending }

/-- The chip's service is over (R560). -/
def Dma.endService (d : Dma) : Dma := { d with underService := false, rdyService := false }

/-- What a RETI means to a chip that waits for one (R550): it may now ask for the bus. Any RETI counts, whether it ends the chip's own
service or another's (DESIGN CHOICE, log entry 10). -/
def Dma.retired (d : Dma) : Dma := { d with waitReti := false }

end Sys2Proof.Machine
end

