-- ==== Sys2Proof/Machine/Pio.lean ====
section
/-! DEFINITION. The Z80-PIO (R481 to R492). -/

namespace Sys2Proof.Machine

/-- A port after power-on, with the values the spec leaves open at zero (R483, DESIGN CHOICE, log entry 1). -/
def PioPort.powerOn : PioPort :=
  { inReg := 0#8, outReg := 0#8, mode := .input, ioSelect := 0#8, mask := 0#8, andOr := false, highLow := false
    intEnable := false, vector := 0#8, expect := .nothing, pending := false, underService := false
    ready := false, lines := 0#8 }

/-- A PIO after power-on: in its reset state (R483). -/
def Pio.powerOn : Pio := { a := PioPort.powerOn, b := PioPort.powerOn, inReset := true }

/-- The chip's reset of a port (R483): the vector stays, what the text does not name takes free values. -/
def PioPort.chipReset (free : Nat → Byte) (p : PioPort) : PioPort :=
  { inReg := free 0, outReg := 0#8, mode := .input, ioSelect := free 1, mask := 0#8
    andOr := (free 2).getLsbD 0, highLow := (free 2).getLsbD 1
    intEnable := false, vector := p.vector, expect := .nothing, pending := false, underService := false
    ready := false, lines := p.lines }

/-- The chip's reset (R483). -/
def Pio.chipReset (free : Nat → Byte) (p : Pio) : Pio :=
  { a := p.a.chipReset free, b := p.b.chipReset (fun k => free (k + 8)), inReset := true }

/-- The levels on the eight lines in mode 3: driven by the peripheral where `io_select` is 1, by `out_reg` where it is 0
(R485, R488). -/
def PioPort.pins (p : PioPort) : Byte := (p.lines &&& p.ioSelect) ||| (p.outReg &&& ~~~p.ioSelect)

/-- The monitored lines, those whose mask bit is 0, that are at the active level (R489, R490, R492). -/
def PioPort.active (p : PioPort) : Byte := (if p.highLow then p.pins else ~~~p.pins) &&& ~~~p.mask

/-- The request condition of mode 3: AND or OR of `line = high_low` over the monitored lines (R489, R490, R492). -/
def PioPort.condition (p : PioPort) : Bool := if p.andOr then p.active == ~~~p.mask else p.active != 0#8

/-- The change from `old` to `p` makes a request (R489): with AND that all monitored lines have become active, with OR that any of
them has, whatever the others are. -/
def PioPort.arises (p old : PioPort) : Bool :=
  if p.andOr then p.condition && !old.condition else p.active &&& ~~~old.active != 0#8

/-- A mode 3 port records the request that a change of its lines makes (R489, R492); `old` is the port before. -/
def PioPort.noteCondition (p old : PioPort) : PioPort :=
  if p.mode = .bitControl ∧ p.arises old = true then { p with pending := true } else p

/-- A mode word sets the mode of D7 D6; mode 3 lowers ready and makes the next word the I/O select word (R485, R487, R488). That the
words for modes 0, 1 and 2 leave ready as it was, and that the word for mode 3 lowers B RDY also while it serves port A in mode 2, is the
model's (DESIGN CHOICE, log entry 8). -/
def PioPort.setMode (p : PioPort) (portB : Bool) (w : Byte) : Except Refusal PioPort :=
  match w.getLsbD 7, w.getLsbD 6 with
  | false, false => .ok { p with mode := .output }
  | false, true => .ok { p with mode := .input }
  | true, false => if portB then .error .pioPortBBidirectional else .ok { p with mode := .bidirectional }
  | true, true => .ok { p with mode := .bitControl, ready := false, expect := .ioSelect }

/-- An interrupt control word (R489): D4 also drops a recorded request and makes the next word the mask. -/
def PioPort.interruptControl (p : PioPort) (w : Byte) : PioPort :=
  { p with
    intEnable := w.getLsbD 7, andOr := w.getLsbD 6, highLow := w.getLsbD 5
    pending := if w.getLsbD 4 then false else p.pending
    expect := if w.getLsbD 4 then .mask else p.expect }

/-- A write to a control address, told apart as R484 says. -/
def PioPort.writeControl (p : PioPort) (portB : Bool) (w : Byte) : Except Refusal PioPort :=
  match p.expect with
  | .ioSelect => .ok { p with ioSelect := w, expect := .nothing }
  | .mask => .ok { p with mask := w, expect := .nothing }
  | .nothing =>
    if w.getLsbD 0 = false then .ok { p with vector := w }
    else if w &&& 0x0F#8 = 0x0F#8 then p.setMode portB w
    else if w &&& 0x0F#8 = 0x07#8 then .ok (p.interruptControl w)
    else if w &&& 0x0F#8 = 0x03#8 then .ok { p with intEnable := w.getLsbD 7 }
    else .error (.pioControlWord w)

/-- A write to a data address loads `out_reg`; in modes 0 and 2 it raises ready (R485). So does a write to port B in mode 0 while port
A is in mode 2 and B RDY serves port A (DESIGN CHOICE, log entry 8). -/
def PioPort.writeData (p : PioPort) (w : Byte) : PioPort :=
  PioPort.noteCondition
    { p with outReg := w, ready := if p.mode = .output ∨ p.mode = .bidirectional then true else p.ready } p

/-- One port of the chip. -/
def Pio.port (p : Pio) (portB : Bool) : PioPort := if portB then p.b else p.a

/-- The chip with one port replaced. -/
def Pio.setPort (p : Pio) (portB : Bool) (q : PioPort) : Pio := if portB then { p with b := q } else { p with a := q }

/-- In mode 3 ready is 0 (R485): B RDY falls where port B is in mode 3 and it does not serve port A in mode 2 any more. -/
def Pio.settle (p : Pio) : Pio :=
  if p.b.mode = .bitControl ∧ p.a.mode ≠ .bidirectional then { p with b := { p.b with ready := false } } else p

/-- A control word for a port that the chip takes ends the reset state (R483, R484). -/
def Pio.writeControl (p : Pio) (portB : Bool) (w : Byte) : Except Refusal Pio :=
  match (p.port portB).writeControl portB w with
  | .ok q => .ok { (p.setPort portB q).settle with inReset := false }
  | .error e => .error e

/-- A write to a data address of the chip (R485); in the reset state it has no effect (R483). -/
def Pio.writeData (p : Pio) (portB : Bool) (w : Byte) : Pio :=
  if p.inReset then p else p.setPort portB ((p.port portB).writeData w)

/-- A read of a data address (R485): `in_reg` in modes 1 and 2, the lines in mode 3, any value in mode 0. Mode 1 raises the
port's ready, mode 2 the ready of port B, which says that port A's input register is empty; in the reset state ready stays
inactive (R483). A read of port B in mode 1 raises B RDY also while it serves port A in mode 2 (DESIGN CHOICE, log entry 8). -/
def Pio.readData (p : Pio) (portB : Bool) (free : Byte) : Byte × Pio :=
  let q := p.port portB
  match q.mode with
  | .output => (free, p)
  | .input => (q.inReg, if p.inReset then p else p.setPort portB { q with ready := true })
  | .bidirectional => (q.inReg, { p with b := { p.b with ready := true } })
  | .bitControl => (q.pins, p)

/-- A strobe of a port that handshakes by itself (R485): it takes the peripheral's byte in mode 1, and the rising edge records a
request; ignored in mode 3. -/
def PioPort.strobe (p : PioPort) (v : Byte) : PioPort :=
  match p.mode with
  | .input => { p with inReg := v, ready := false, pending := true }
  | .output | .bidirectional => { p with ready := false, pending := true }
  | .bitControl => p

/-- A strobe input of the chip (R485), without effect in the reset state (R483). With port A in mode 2 the strobe of port B loads
port A's input register; the request is port B's (PRESUMED, log entry 8). -/
def Pio.strobe (p : Pio) (portB : Bool) (v : Byte) : Pio :=
  if p.inReset then p
  else if portB = true ∧ p.a.mode = .bidirectional then
    { p with a := { p.a with inReg := v }, b := { p.b with ready := false, pending := true } }
  else p.setPort portB ((p.port portB).strobe v)

/-- New levels on the lines of a port (R485, R492). -/
def Pio.drive (p : Pio) (portB : Bool) (v : Byte) : Pio :=
  p.setPort portB (PioPort.noteCondition { p.port portB with lines := v } (p.port portB))

/-- The port requests an interrupt, its place in the chain permitting (R492). -/
def PioPort.requests (p : PioPort) : Bool := p.pending && p.intEnable

/-- The vector that a port delivers: bit 0 is 0 (R486). -/
def PioPort.delivered (p : PioPort) : Byte := p.vector &&& 0xFE#8

/-- The port whose request is acknowledged (R560). -/
def PioPort.acknowledge (p : PioPort) : PioPort := { p with pending := false, underService := true }

end Sys2Proof.Machine
end

