-- ==== Sys2Proof/Machine/Sio.lean ====
section
/-! DEFINITION. The Z80-SIO as far as the spec gives it (R500 to R514): the register pointer, the write registers, the character
formats, the data path with its errors, synchronisation, the CRC registers, the modem signals, and the interrupt requests. What a
read register shows is any value (R511); what the lost layouts hold is a constant of Config with no body (R507, R510). -/

namespace Sys2Proof.Machine

/-- A channel after reset, with the values the spec leaves open at zero (R503, DESIGN CHOICE, log entry 1). -/
def SioChannel.powerOn : SioChannel :=
  { ptr := 0#3, wr1 := 0#8, wr2 := 0#8, wr3 := 0#8, wr4 := 0#8, wr5 := 0#8, wr6 := 0#8, wr7 := 0#8
    received := [], sending := none, parityError := false, framingError := false, overrun := false, breakOn := false
    rxCrc := 0#16, txCrc := 0#16, crcSyncLatch := false
    hunting := true, syncHalf := false, inFrame := false, endOfFrame := false, crcError := false
    rxPending := false, txPending := false, extPending := false, underService := false, firstArmed := true
    transmitOn := false, rts := false, dtr := false, cts := false, dcd := false, sync := false }

/-- An SIO after reset. -/
def Sio.powerOn : Sio := { a := SioChannel.powerOn, b := SioChannel.powerOn }

/-- Reset of a channel, by the RESET input or the command (R503, R505): receiver, transmitter and interrupts closed, the modem
outputs at log 1 (inactive), the pointer 0; the other bits of the write registers and the CRC registers take free values. That the
received characters, the errors, the recorded requests and the service in progress are dropped, that the first-character interrupt is
armed, that the receiver looks for synchronisation again, and that a recorded break stays, as it shows the level of the line, is the
model's (DESIGN CHOICE, log entry 20). -/
def SioChannel.chipReset (free : Nat → Byte) (c : SioChannel) : SioChannel :=
  { ptr := 0#3, wr1 := free 1 &&& 0xE4#8, wr2 := free 2, wr3 := free 3 &&& 0xFE#8, wr4 := free 4
    wr5 := free 5, wr6 := free 6, wr7 := free 7
    received := [], sending := none, parityError := false, framingError := false, overrun := false, breakOn := c.breakOn
    rxCrc := word (free 8) (free 9), txCrc := word (free 10) (free 11), crcSyncLatch := (free 12).getLsbD 0
    hunting := true, syncHalf := false, inFrame := false, endOfFrame := false, crcError := false
    rxPending := false, txPending := false, extPending := false, underService := false, firstArmed := true
    transmitOn := false, rts := false, dtr := false, cts := c.cts, dcd := c.dcd, sync := c.sync }

/-- Reset of the chip (R503). -/
def Sio.chipReset (free : Nat → Byte) (p : Sio) : Sio :=
  { a := p.a.chipReset free, b := p.b.chipReset (fun k => free (k + 16)) }

/-- One channel of the chip. -/
def Sio.channel (p : Sio) (channelB : Bool) : SioChannel := if channelB then p.b else p.a

/-- The chip with one channel replaced. -/
def Sio.setChannel (p : Sio) (channelB : Bool) (c : SioChannel) : Sio :=
  if channelB then { p with b := c } else { p with a := c }

/-- The effect of a WR0 command on its channel, as its name in table 18 says (R505, DEDUCED, log entry 9). -/
def SioChannel.command (free : Nat → Byte) (c : SioChannel) (w : Byte) : SioChannel :=
  match (w.extractLsb' 3 3).toNat with
  | 2 => { c with extPending := false }
  | 3 => c.chipReset free
  | 4 => { c with firstArmed := true }
  | 5 => { c with txPending := false }
  | 6 =>
    { c with
      parityError := false, framingError := false, overrun := false, endOfFrame := false, crcError := false }
  | _ => c

/-- The effect of the CRC reset code of WR0, as its name in table 18 says (R505, DEDUCED, log entry 9). -/
def SioChannel.crcCode (c : SioChannel) (w : Byte) : SioChannel :=
  match (w.extractLsb' 6 2).toNat with
  | 1 => { c with rxCrc := Config.sioCrcStart c.wr3 c.wr5 }
  | 2 => { c with txCrc := Config.sioCrcStart c.wr3 c.wr5 }
  | 3 => { c with crcSyncLatch := false }
  | _ => c

/-- A write to write register `n` of a channel; WR2 exists in channel B only (R504, R507). WR5 sets the RTS and DTR outputs and opens
or closes the transmitter by bits whose places are lost (R501, R510); WR3 may send the receiver back to look for synchronisation by a
bit whose place is lost (R508). -/
def SioChannel.setRegister (c : SioChannel) (channelB : Bool) (n : Nat) (w : Byte) : SioChannel :=
  match n with
  | 1 => { c with wr1 := w }
  | 2 => if channelB then { c with wr2 := w } else c
  | 3 => { c with wr3 := w, hunting := c.hunting || Config.sioEnterHunt w, inFrame := c.inFrame && !Config.sioEnterHunt w }
  | 4 => { c with wr4 := w }
  | 5 =>
    { c with
      wr5 := w, rts := Config.sioRts w, dtr := Config.sioDtr w, transmitOn := Config.sioTransmitOn w }
  | 6 => { c with wr6 := w }
  | _ => { c with wr7 := w }

/-- A control write (R504): to WR0, whose low bits become the pointer after its command, or to the register pointed at, after
which the pointer is 0. The low bits of a CHANNEL RESET word count too, though R503 leaves the pointer at 0 (DESIGN CHOICE, log
entry 9). -/
def SioChannel.writeControl (free : Nat → Byte) (c : SioChannel) (channelB : Bool) (w : Byte) : SioChannel :=
  if c.ptr = 0#3 then { (c.command free w).crcCode w with ptr := w.extractLsb' 0 3 }
  else { c.setRegister channelB c.ptr.toNat w with ptr := 0#3 }

/-- A control write with the command RETURN FROM INT of channel A ends the service of the chip's unit that is under service and
nearest the head, as a RETI does (R505, R512, DEDUCED, log entry 9). -/
def Sio.writeControl (free : Nat → Byte) (p : Sio) (channelB : Bool) (w : Byte) : Sio :=
  let c := p.channel channelB
  let p' := p.setChannel channelB (c.writeControl free channelB w)
  if c.ptr = 0#3 ∧ channelB = false ∧ w.extractLsb' 3 3 = 7#3 then
    if p'.a.underService then { p' with a := { p'.a with underService := false } }
    else { p' with b := { p'.b with underService := false } }
  else p'

/-! ## Formats -/

/-- The auto enables bit of WR3 (R501, R508). -/
def SioChannel.autoEnables (c : SioChannel) : Bool := c.wr3.getLsbD 5

/-- The format of WR4: asynchronous unless the stop bits field is 00, then the sync mode field (R509). -/
def SioChannel.format (c : SioChannel) : SioFormat :=
  if c.wr4.extractLsb' 2 2 ≠ 0#2 then .async
  else
    match (c.wr4.extractLsb' 4 2).toNat with
    | 0 => .monosync
    | 1 => .bisync
    | 2 => .sdlc
    | _ => .external

/-- Asynchronous (R509). -/
def SioChannel.async (c : SioChannel) : Bool := c.format = .async

/-- The stop time in half bits (R500, R509); none in the synchronous modes. -/
def SioChannel.stopHalfBits (c : SioChannel) : Nat :=
  match (c.wr4.extractLsb' 2 2).toNat with
  | 0 => 0
  | k => k + 1

/-- SYNC is an input in asynchronous mode (R501). That it is one with external sync too and an output in the other synchronous modes is
the model's, since R501 says only "by mode" (PRESUMED, log entry 9). -/
def SioChannel.syncIsInput (c : SioChannel) : Bool := c.format = .async ∨ c.format = .external

/-- The clocks of one bit (R500, R509). -/
def SioChannel.clockFactor (c : SioChannel) : Nat :=
  match (c.wr4.extractLsb' 6 2).toNat with
  | 0 => 1
  | 1 => 16
  | 2 => 32
  | _ => 64

/-- The bits of a received character (R508). -/
def SioChannel.receiveBits (c : SioChannel) : Nat :=
  match (c.wr3.extractLsb' 6 2).toNat with
  | 0 => 5
  | 1 => 7
  | 2 => 6
  | _ => 8

/-- The low `bits` bits of a byte. -/
def lowBits (bits : Nat) (v : Byte) : Byte := v &&& BitVec.ofNat 8 (2 ^ bits - 1)

/-- The parity bit of a character: with D1 of WR4 even parity, else odd (R500, R509, PRESUMED, log entry 9). -/
def SioChannel.parityBit (c : SioChannel) (v : Byte) : Bool := if c.wr4.getLsbD 1 then !parityEven v else parityEven v

/-- The receiver is open: enabled, and with auto enables also DCD active (R501, R508). -/
def SioChannel.receiverOpen (c : SioChannel) : Bool := c.wr3.getLsbD 0 && (!c.autoEnables || c.dcd)

/-- The transmitter is open: enabled, and with auto enables also CTS active (R501, R503). -/
def SioChannel.transmitterOpen (c : SioChannel) : Bool := c.transmitOn && (!c.autoEnables || c.cts)

/-! ## The data path -/

/-- The receive interrupt mode of WR1: 0 off, 1 first character, 2 and 3 all characters (R506). -/
def SioChannel.receiveMode (c : SioChannel) : Nat := (c.wr1.extractLsb' 3 2).toNat

/-- The waiting characters with one more. Where there is no room it is an overrun, and which of the last two characters is lost is
free (R500, DESIGN CHOICE, log entry 9). -/
def SioChannel.keep (c : SioChannel) (v free : Byte) : SioChannel :=
  let room := decide (c.received.length < max 1 Config.sioDepth)
  { c with
    received := if room then c.received ++ [v] else c.received.dropLast ++ [free]
    overrun := c.overrun || !room }

/-- The CRC register of a receiver after one more character, and whether its check now finds an error: in the synchronous modes with
sync characters and with external sync the check is made at every character, in SDLC at the flag that ends the frame (R500, PRESUMED,
log entry 9). -/
def SioChannel.checkCrc (c : SioChannel) (v : Byte) : Word × Bool :=
  let crc := Config.sioCrcStep c.wr3 c.wr5 c.rxCrc v
  match c.format with
  | .async => (c.rxCrc, c.crcError)
  | .sdlc => (crc, c.crcError)
  | .monosync | .bisync | .external => (crc, !Config.sioCrcGood c.wr3 c.wr5 crc)

/-- A character is received: its width, its parity and its stop bit are checked as WR3 and WR4 say, in the synchronous modes the CRC goes
on (R500, R502, R508, R509), and the receive interrupt mode decides whether it is a request (R506). The bits above a short
character are free. Width, parity and overrun count in EVERY format, SDLC included: R500 lists them with the asynchronous one, R508 and
R509 tie them to none (DESIGN CHOICE, log entry 9). A parity or framing error does not go with its character: it stays recorded for the
channel until ERROR RESET or a reset (R500, DESIGN CHOICE, log entry 9). -/
def SioChannel.accept (free : Nat → Byte) (c : SioChannel) (ch : SioChar) : SioChannel :=
  let v := lowBits c.receiveBits ch.data
  let kept := c.keep (v ||| (free 0 &&& ~~~lowBits c.receiveBits 0xFF#8)) (free 1)
  { kept with
    parityError := c.parityError || (c.wr4.getLsbD 0 && ch.parityBit != c.parityBit v)
    framingError := c.framingError || (c.async && !ch.stopBit)
    rxCrc := (c.checkCrc v).1
    crcError := (c.checkCrc v).2
    inFrame := c.format = .sdlc
    sync := if c.syncIsInput then c.sync else false
    rxPending := c.rxPending || (if c.receiveMode = 1 then c.firstArmed else c.receiveMode != 0)
    firstArmed := if c.receiveMode = 1 then false else c.firstArmed }

/-- The character `v` ends the search for synchronisation (R500, R509): the sync character with 8-bit sync, the second one right after
the first with 16-bit sync. In SDLC a flag ends it, with external sync the SYNC input. -/
def SioChannel.syncFound (c : SioChannel) (v : Byte) : Bool :=
  match c.format with
  | .monosync => v == Config.sioSyncChar c.wr6 c.wr7 1
  | .bisync => c.syncHalf && v == Config.sioSyncChar c.wr6 c.wr7 3
  | .async | .sdlc | .external => false

/-- A character comes while the receiver looks for synchronisation: it is not received, all its eight bits are compared and its parity is
not checked (R500, PRESUMED, log entry 9). Where SYNC is an
output it shows that the sync character has come; gaining or losing synchronisation then makes no request, since R512 lists SYNC
without saying whether as an output too (DESIGN CHOICE, log entry 9). -/
def SioChannel.seek (c : SioChannel) (v : Byte) : SioChannel :=
  { c with
    hunting := !c.syncFound v
    syncHalf := c.format = .bisync && v == Config.sioSyncChar c.wr6 c.wr7 2
    sync := if c.syncIsInput then c.sync else c.syncFound v }

/-- A character arrives on the line: an open receiver receives it, but in a synchronous mode only when it is synchronised (R500). -/
def SioChannel.receive (free : Nat → Byte) (c : SioChannel) (ch : SioChar) : SioChannel :=
  if c.receiverOpen then (if !c.async && c.hunting then c.seek ch.data else c.accept free ch) else c

/-- A flag of SDLC on the line: it ends the search for synchronisation and the frame that is open, whose CRC is then checked, and the
CRC register starts again (R500, R509). An abort closes the frame unchecked, and the receiver looks for a flag again. Neither makes
a request: R506 and R512 list characters, CTS, DCD and SYNC (PRESUMED, log entry 9). -/
def SioChannel.lineFlag (c : SioChannel) (abort : Bool) : SioChannel :=
  if c.receiverOpen && decide (c.format = .sdlc) then
    if abort then { c with hunting := true, inFrame := false }
    else
      { c with
        hunting := false, inFrame := false, sync := true
        endOfFrame := c.endOfFrame || c.inFrame
        crcError := if c.inFrame then !Config.sioCrcGood c.wr3 c.wr5 c.rxCrc else c.crcError
        rxCrc := Config.sioCrcStart c.wr3 c.wr5 }
  else c

/-- A break on the line begins or ends (R500). It makes no request, since R512 lists CTS, DCD and SYNC, and it is not seen while the
receiver is closed or in a synchronous mode, so that a recorded break stays then (DESIGN CHOICE, log entry 9). -/
def SioChannel.lineBreak (c : SioChannel) (on : Bool) : SioChannel :=
  if c.receiverOpen && c.async then { c with breakOn := on } else c

/-- A data read takes the oldest character; with none waiting the value is free (R502). It drops no recorded request, on which the spec
is silent (DESIGN CHOICE, log entry 9). -/
def SioChannel.readData (c : SioChannel) (free : Byte) : Byte × SioChannel :=
  match c.received with
  | [] => (free, c)
  | v :: rest => (v, { c with received := rest })

/-- A character for the transmitter (R502). One that still waits is overwritten, and no recorded request is dropped (DESIGN CHOICE, log
entry 9). -/
def SioChannel.writeData (c : SioChannel) (v : Byte) : SioChannel := { c with sending := some v }

/-- A character of 5 to 8 bits leaves the transmitter in the format of WR4 and WR5 (R500, R509, R510); its buffer is then empty, which
is a request (R512). The parity bit and the clock factor of WR4 count in EVERY format, SDLC included: R500 lists them with the
asynchronous one, R509 ties them to none; the CRC does not take in the parity bit (DESIGN CHOICE, log entry 9). -/
def SioChannel.sendChar (c : SioChannel) (w : Byte) : SioSent × SioChannel :=
  let bits := 5 + (Config.sioTransmitBits c.wr5).val
  let v := lowBits bits w
  (.char
    { data := v, bits := bits, parityBit := if c.wr4.getLsbD 0 then some (c.parityBit v) else none
      stopHalfBits := c.stopHalfBits, clockFactor := c.clockFactor },
   { c with
     sending := none, txPending := true
     txCrc := if c.async then c.txCrc else Config.sioCrcStep c.wr3 c.wr5 c.txCrc v })

/-- What a synchronous transmitter with no character sends on the line: the sync characters, or the flag of SDLC (R500, R509, R510). That
it sends the character of 8-bit sync with external sync is the model's, since R509 does not say (PRESUMED, log entry 9). -/
def SioChannel.filler (c : SioChannel) : Option SioSent :=
  match c.format with
  | .async => none
  | .monosync | .external => some (.sync [Config.sioSyncChar c.wr6 c.wr7 0])
  | .bisync => some (.sync [Config.sioSyncChar c.wr6 c.wr7 2, Config.sioSyncChar c.wr6 c.wr7 3])
  | .sdlc => some .flag

/-- What leaves the transmitter next, if it is open (R501 to R503): the character that waits; with none, in a synchronous mode, the CRC
once after the latch of the CRC and sync characters has been reset, where WR5 has it sent, and after it sync characters or flags. The
latch is then set (R500, R505, PRESUMED, log entry 9). -/
def SioChannel.send (c : SioChannel) : Option (SioSent × SioChannel) :=
  if c.transmitterOpen then
    match c.sending with
    | some w => some (c.sendChar w)
    | none =>
      c.filler.map fun filler =>
        (if !c.crcSyncLatch && Config.sioSendsCrc c.wr5 then .crc c.txCrc else filler, { c with crcSyncLatch := true })
  else none

/-- New levels on CTS, DCD and SYNC; a change is a request (R501, R512). SYNC counts where it is an input: where it is an output no change
of it is a request (R512, DESIGN CHOICE, log entry 9). With external sync it ends the search for synchronisation (R509). -/
def SioChannel.modem (c : SioChannel) (cts dcd sync : Bool) : SioChannel :=
  let newSync := if c.syncIsInput then sync else c.sync
  { c with
    cts := cts, dcd := dcd, sync := newSync
    hunting := c.hunting && !(decide (c.format = .external) && sync)
    extPending := c.extPending || (c.cts != cts) || (c.dcd != dcd) || (c.sync != newSync) }

/-- The WAIT/READY output as a ready line for a DMA (R501, R506): enabled by D7 of WR1, READY function by D6; with D5 it says that a
character waits, else that the transmitter can take one. The WAIT function is timing only. The senses of D6 and D5 are PRESUMED
(log entry 9). -/
def SioChannel.readyOut (c : SioChannel) : Bool :=
  c.wr1.getLsbD 7 && c.wr1.getLsbD 6 &&
    (if c.wr1.getLsbD 5 then !c.received.isEmpty else c.transmitterOpen && c.sending.isNone)

/-! ## Interrupts -/

/-- The channel requests an interrupt: a recorded request whose enable in WR1 is on (R506, R512). -/
def SioChannel.requests (c : SioChannel) : Bool :=
  (c.rxPending && c.receiveMode != 0) || (c.txPending && c.wr1.getLsbD 1) || (c.extPending && c.wr1.getLsbD 0)

/-- A condition of the receiver that affects the vector; parity does in receive mode 10 and does not in mode 11 (R506). That it does not
in mode 01 either, and that the end of a frame counts, is the model's (DESIGN CHOICE, log entry 9). -/
def SioChannel.specialCondition (c : SioChannel) : Bool :=
  c.framingError || c.overrun || c.endOfFrame || (c.parityError && c.receiveMode == 2)

/-- The status of a channel as a number: what requests, and what the receiver found (R500, R506, R512). -/
def SioChannel.statusCode (c : SioChannel) : Nat :=
  (c.rxPending && c.receiveMode != 0).toNat + 2 * (c.txPending && c.wr1.getLsbD 1).toNat +
    4 * (c.extPending && c.wr1.getLsbD 0).toNat + 8 * c.specialCondition.toNat +
    16 * c.crcError.toNat

/-- The vector that the chip delivers for a channel: WR2 of channel B, changed by the status where D2 of its WR1 says so; which bits
change is lost (R506, R507). -/
def Sio.delivered (p : Sio) (channelB : Bool) : Byte :=
  if p.b.wr1.getLsbD 2 then Config.sioVector p.b.wr2 (2 * (p.channel channelB).statusCode + channelB.toNat) else p.b.wr2

/-- The channel whose request is acknowledged: its requests are dropped (R560, DEDUCED, log entry 9). -/
def SioChannel.acknowledge (c : SioChannel) : SioChannel :=
  { c with rxPending := false, txPending := false, extPending := false, underService := true }

end Sys2Proof.Machine
end

