-- ==== Sys2Proof/Machine/Chain.lean ====
section
/-! DEFINITION. The priority chain IEI/IEO of the interrupting units (R445, R560): who pulls INT low, who answers an acknowledge,
and whose service a RETI ends. -/

namespace Sys2Proof.Machine

/-- A free value of a chip (R11); `use` tells apart what it stands for, the board's count of drawn values the moment. -/
def Board.chipFree (b : Board) (tick use : Nat) : Byte := Config.chipByte tick b.draws use

/-- The units of a chip in their fixed order (R492, R500, R525, R560). -/
def ChipId.units : ChipId → List IntUnit
  | .pio n => [.pio n false, .pio n true]
  | .sio n => [.sio n false, .sio n true]
  | .ctc n => [.ctc n 0, .ctc n 1, .ctc n 2, .ctc n 3]
  | .dma n => [.dma n]

/-- The units of the board in chain order, the one with IEI tied to 1 first (R560). -/
def Board.units (b : Board) : List IntUnit := b.chain.flatMap ChipId.units

/-- `req(u)`: the unit has a recorded request and its own enable is on (R560). -/
def Board.requests (b : Board) : IntUnit → Bool
  | .pio n portB => (b.pios[n]?.map fun p => (p.port portB).requests).getD false
  | .sio n channelB => (b.sios[n]?.map fun p => (p.channel channelB).requests).getD false
  | .ctc n k => (b.ctcs[n]?.map fun p => (p.channel k).requests).getD false
  | .dma n => (b.dmas[n]?.map fun d => d.requests).getD false

/-- `under_service(u)` (R560). -/
def Board.underService (b : Board) : IntUnit → Bool
  | .pio n portB => (b.pios[n]?.map fun p => (p.port portB).underService).getD false
  | .sio n channelB => (b.sios[n]?.map fun p => (p.channel channelB).underService).getD false
  | .ctc n k => (b.ctcs[n]?.map fun p => (p.channel k).underService).getD false
  | .dma n => (b.dmas[n]?.map fun d => d.underService).getD false

/-- `vector(u)`: the byte the unit puts on the bus (R486, R507, R536, R552). -/
def Board.vector (b : Board) : IntUnit → Byte
  | .pio n portB => (b.pios[n]?.map fun p => (p.port portB).delivered).getD 0#8
  | .sio n channelB => (b.sios[n]?.map fun p => p.delivered channelB).getD 0#8
  | .ctc n k => (b.ctcs[n]?.map fun p => p.delivered k).getD 0#8
  | .dma n => (b.dmas[n]?.map fun d => d.delivered).getD 0#8

/-- The unit's request goes and its service begins (R560). -/
def Board.acknowledge (b : Board) : IntUnit → Board
  | .pio n portB =>
    { b with pios := b.pios.modify n fun p => p.setPort portB (p.port portB).acknowledge }
  | .sio n channelB =>
    { b with sios := b.sios.modify n fun p => p.setChannel channelB (p.channel channelB).acknowledge }
  | .ctc n k => { b with ctcs := b.ctcs.modify n fun p => p.setChannel k (p.channel k).acknowledge }
  | .dma n => { b with dmas := b.dmas.modify n fun d => d.acknowledge }

/-- The unit's service is over (R560). -/
def Board.endService (b : Board) : IntUnit → Board
  | .pio n portB =>
    { b with pios := b.pios.modify n fun p => p.setPort portB { p.port portB with underService := false } }
  | .sio n channelB =>
    { b with sios := b.sios.modify n fun p => p.setChannel channelB { p.channel channelB with underService := false } }
  | .ctc n k =>
    { b with ctcs := b.ctcs.modify n fun p => p.setChannel k { p.channel k with underService := false } }
  | .dma n => { b with dmas := b.dmas.modify n fun d => d.endService }

/-- The first unit of a chain that requests with its IEI at 1: a unit under service lowers IEI for all behind it (R560). -/
def Board.firstRequest (b : Board) : List IntUnit → Option IntUnit
  | [] => none
  | u :: rest =>
    if b.underService u then none
    else if b.requests u then some u
    else b.firstRequest rest

/-- The unit that pulls INT low, if one does (R560). -/
def Board.requester (b : Board) : Option IntUnit := b.firstRequest b.units

/-- The RETI notification: the unit under service that is nearest the head is served, and a DMA that waits for a RETI may go on
(R357, R445, R550, R560). -/
def Board.notifyReti (b : Board) : Board :=
  let b1 :=
    match b.units.find? b.underService with
    | some u => b.endService u
    | none => b
  { b1 with dmas := b1.dmas.map Dma.retired, log := .reti :: b1.log }

end Sys2Proof.Machine
end

