-- ==== Sys2Proof/Machine/Memory.lean ====
section
/-! DEFINITION. Memory: reading and writing a cell, the platform's map of addresses to cells, and one byte access through the
map (R60 to R63, R70, R74). Nothing here depends on alignment (R68). -/

namespace Sys2Proof.Machine

/-- The canonical form: cell numbers strictly rising, so that each cell is listed at most once (DESIGN CHOICE, log entry 2). -/
abbrev Memory.wf (m : Memory) : Prop := m.Pairwise (fun x y => x.1 < y.1)

/-- The byte of a cell; a cell that nothing has written holds its unknown power-on content (R62, R584, DESIGN CHOICE, log entry 2). -/
def cellRead (m : Memory) (cell : Nat) : Byte :=
  match m with
  | [] => Config.powerOnByte cell
  | (k, v) :: rest => if k = cell then v else cellRead rest cell

/-- The memory after a cell has been written (R63). -/
def cellWrite (m : Memory) (cell : Nat) (v : Byte) : Memory :=
  match m with
  | [] => [(cell, v)]
  | (k, w) :: rest =>
    if cell < k then (cell, v) :: (k, w) :: rest
    else if cell = k then (cell, v) :: rest
    else (k, w) :: cellWrite rest cell v

/-- The chip answers at this address (R70). -/
def Region.hit (r : Region) (a : Word) : Bool := a &&& r.mask == r.select

/-- The cell that an address reaches in a chip (R70, R565). -/
def Region.cell (r : Region) (a : Word) : Nat := r.base + (a &&& r.within).toNat

/-- The chips in the order in which they answer: those of an active overlay first (R74, R572). -/
def Board.regions (b : Board) : List Region :=
  match b.overlay with
  | some o => if o.active then o.regions ++ b.memmap else b.memmap
  | none => b.memmap

/-- The chip that answers at an address, if any (R70). -/
def Board.locate (b : Board) (a : Word) : Option Region := b.regions.find? (fun r => r.hit a)

/-- Two addresses reach one cell of the platform's memory (R70, mirrors); a device of the host's has no cells. -/
def Board.sameCell (b : Board) (a a' : Word) : Prop :=
  ∃ r r', b.locate a = some r ∧ b.locate a' = some r' ∧ r.kind ≠ .device ∧ r'.kind ≠ .device ∧ r.cell a = r'.cell a'

/-- The chip takes a byte that is written to it: RAM, and guarded RAM while the board does not protect it (R63, R558). -/
def Board.writes (b : Board) (r : Region) : Bool :=
  match r.kind with
  | .ram => true
  | .guardedRam => !b.ramGuard
  | .rom | .device => false

/-- RAM that takes a written byte answers at the address (R63). -/
def Board.isRam (b : Board) (a : Word) : Prop := ∃ r, b.locate a = some r ∧ b.writes r = true

/-- A device of the host's answers at the address (R62, R470). -/
def Board.isDevice (b : Board) (a : Word) : Bool :=
  match b.locate a with
  | some r => r.kind = .device
  | none => false

/-- The content of memory at an address: the cell's byte, or any value where no memory is mapped (R62, R70). -/
def Board.peek (b : Board) (tick : Nat) (cycle : Cycle) (a : Word) : Byte :=
  match b.locate a with
  | some r => if r.kind = .device then Config.openBus tick cycle a else cellRead b.mem (r.cell a)
  | none => Config.openBus tick cycle a

/-- `MemRead(a, 1)`: the content of memory; a device of the host's answers with its next byte and sees the access (R62, R470). -/
def Board.memRead (b : Board) (tick : Nat) (cycle : Cycle) (a : Word) : Byte × Board :=
  if b.isDevice a then
    let v := b.memIn.headD (Config.openBus tick cycle a)
    (v, { b with memIn := b.memIn.tail, log := .memRead a v :: b.log })
  else (b.peek tick cycle a, b)

/-- `MemWrite(a, 1, v)`: a RAM cell takes the byte, a device of the host's sees it, ROM and unpopulated addresses ignore it (R63,
R70, R470). -/
def Board.poke (b : Board) (a : Word) (v : Byte) : Board :=
  match b.locate a with
  | some r =>
    if b.writes r then { b with mem := cellWrite b.mem (r.cell a) v }
    else if r.kind = .device then { b with log := .memWrite a v :: b.log }
    else b
  | none => b

end Sys2Proof.Machine
end

