-- ==== Sys2Proof/Machine/Bus.lean ====
section
/-! DEFINITION. The I/O space and what the board does by itself: I/O cycles to host devices and chips (R61, R66, R71), what the
peripherals do to the chips, and the bus masters' accesses (R460, R543). -/

namespace Sys2Proof.Machine

/-! ## I/O cycles -/

/-- What a port number reaches: the first device that decodes it (R71). -/
def Board.target (b : Board) (port : Word) : Option PortTarget :=
  (b.iomap.find? fun e => port &&& e.mask == e.select).map (·.target)

/-- An I/O read of a port in the boot overlay's range switches the overlay off (R572, R586). -/
def Board.leaveOverlay (b : Board) (port : Word) : Board :=
  match b.overlay with
  | some o => if port &&& o.offMask == o.offSelect then { b with overlay := some { o with active := false } } else b
  | none => b

/-- A RDY input that is wired to an SIO takes the level of its output (R501, R541), which is low when it is ready (PRESUMED, log
entry 9). -/
def Board.carry (b : Board) (w : ReadyWire) : Board :=
  match b.sios[w.sio]? with
  | none => b
  | some p => { b with dmas := b.dmas.modify w.dma fun d => { d with readyLine := !(p.channel w.channelB).readyOut } }

/-- All wires between SIO outputs and RDY inputs carry their levels (R501, R541). -/
def Board.wireReady (b : Board) : Board := b.readyWires.foldl Board.carry b

/-- The byte that answers at a port, and the devices after the read (R66, R485, R502, R511, R533, R551). -/
def Board.answer (b : Board) (tick : Nat) (port : Word) : Byte × Board :=
  let open_ := Config.openPort tick b.draws port
  match b.target port with
  | none => (open_, b)
  | some .external =>
    match b.portIn with
    | [] => (open_, b)
    | v :: rest => (v, { b with portIn := rest })
  | some (.pio n control portB) =>
    match b.pios[n]? with
    | none => (open_, b)
    | some p =>
      let free := b.chipFree tick (1000 * n + portB.toNat)
      if control then (free, b)
      else ((p.readData portB free).1, { b with pios := b.pios.set n (p.readData portB free).2 })
  | some (.sio n control channelB) =>
    match b.sios[n]? with
    | none => (open_, b)
    | some p =>
      let free := b.chipFree tick (1000 * n + 100 + channelB.toNat)
      let c := p.channel channelB
      if control then (free, { b with sios := b.sios.set n (p.setChannel channelB { c with ptr := 0#3 }) })
      else ((c.readData free).1, { b with sios := b.sios.set n (p.setChannel channelB (c.readData free).2) })
  | some (.ctc n k) =>
    match b.ctcs[n]? with
    | none => (open_, b)
    | some p => ((p.channel k).down, b)
  | some (.dma n) =>
    match b.dmas[n]? with
    | none => (open_, b)
    | some d =>
      let free := b.chipFree tick (1000 * n + 300)
      ((d.read free).1, { b with dmas := b.dmas.set n (d.read free).2 })

/-- `IORead(port)`: one I/O read cycle, with the device's side effects (R66). -/
def Board.ioRead (b : Board) (tick : Nat) (port : Word) : Byte × Board :=
  let r := b.wireReady.answer tick port
  (r.1, { r.2.leaveOverlay port with log := .ioRead port r.1 :: r.2.log, draws := r.2.draws + 1 })

/-- The events that a control write to an SIO shows outside: commands that act on the line or on units the spec does not
describe (R505). -/
def sioCommandLog (c : SioChannel) (n : Nat) (channelB : Bool) (w : Byte) : List BusEvent :=
  if c.ptr = 0#3 ∧ w &&& 0xF8#8 ≠ 0#8 then [.sioCommand n channelB w] else []

/-- The devices after a write to a port, or the refusal of a chip's word (R66, R484, R485, R502, R504, R528, R544). -/
def Board.deliver (b : Board) (tick : Nat) (port : Word) (v : Byte) : Except Refusal Board :=
  match b.target port with
  | none => .ok b
  | some .external => .ok b
  | some (.pio n control portB) =>
    match b.pios[n]? with
    | none => .ok b
    | some p =>
      if control then
        match p.writeControl portB v with
        | .ok q => .ok { b with pios := b.pios.set n q }
        | .error e => .error e
      else .ok { b with pios := b.pios.set n (p.writeData portB v) }
  | some (.sio n control channelB) =>
    match b.sios[n]? with
    | none => .ok b
    | some p =>
      if control then
        let free := fun k => b.chipFree tick (1000 * n + 600 + k)
        .ok { b with
          sios := b.sios.set n (p.writeControl free channelB v)
          log := sioCommandLog (p.channel channelB) n channelB v ++ b.log }
      else .ok { b with sios := b.sios.set n (p.setChannel channelB ((p.channel channelB).writeData v)) }
  | some (.ctc n k) =>
    match b.ctcs[n]? with
    | none => .ok b
    | some p => .ok { b with ctcs := b.ctcs.set n (p.write k v) }
  | some (.dma n) =>
    match b.dmas[n]? with
    | none => .ok b
    | some d => .ok { b with dmas := b.dmas.set n (d.write (fun k => b.chipFree tick (1000 * n + 600 + k)) v) }

/-- `IOWrite(port, v)`: one I/O write cycle (R66). -/
def Board.ioWrite (b : Board) (tick : Nat) (port : Word) (v : Byte) : Except Refusal Board :=
  match b.deliver tick port v with
  | .ok b' => .ok { b' with log := .ioWrite port v :: b'.log, draws := b'.draws + 1 }
  | .error e => .error e

/-! ## What the peripherals do -/

/-- The log entries of a zero count; channel 3 has no ZC/TO pin (R534). -/
def zeroLog (zero : Bool) (n k : Nat) : List BusEvent := if zero ∧ k % 4 < 3 then [.ctcZero n (k % 4)] else []

/-- One system clock period at one channel of a CTC (R531). -/
def Board.clockChannel (b : Board) (n k : Nat) : Board :=
  match b.ctcs[n]? with
  | none => b
  | some p =>
    let r := (p.channel k).clock
    { b with ctcs := b.ctcs.set n (p.setChannel k r.1), log := zeroLog r.2 n k ++ b.log }

/-- System clock periods at a CTC, all four channels in each (R531). -/
def Board.clockCtc (b : Board) (n : Nat) : Nat → Board
  | 0 => b
  | count + 1 =>
    Board.clockCtc ((((b.clockChannel n 0).clockChannel n 1).clockChannel n 2).clockChannel n 3) n count

/-- What an SIO channel sends leaves the machine (R500, R502). -/
def Board.sioSent (b : Board) (n : Nat) (channelB : Bool) : Board :=
  match b.sios[n]? with
  | none => b
  | some p =>
    match (p.channel channelB).send with
    | none => b
    | some (what, c) =>
      { b with sios := b.sios.set n (p.setChannel channelB c), log := .sioSend n channelB what :: b.log }

/-- What a peripheral or the board does to a chip (R470, R485, R501, R527, R541, R558). -/
def Board.chipEvent (b : Board) (tick : Nat) : ChipEvent → Board
  | .pioStrobe n portB v => { b with pios := b.pios.modify n fun p => p.strobe portB v }
  | .pioLines n portB v => { b with pios := b.pios.modify n fun p => p.drive portB v }
  | .pioReset n => { b with pios := b.pios.modify n fun p => p.chipReset fun k => b.chipFree tick (1000 * n + 500 + k) }
  | .sioReceive n channelB ch =>
    { b with sios := b.sios.modify n fun p =>
        p.setChannel channelB ((p.channel channelB).receive (fun k => b.chipFree tick (1000 * n + 450 + k)) ch) }
  | .sioBreak n channelB on =>
    { b with sios := b.sios.modify n fun p => p.setChannel channelB ((p.channel channelB).lineBreak on) }
  | .sioFlag n channelB abort =>
    { b with sios := b.sios.modify n fun p => p.setChannel channelB ((p.channel channelB).lineFlag abort) }
  | .sioSent n channelB => b.sioSent n channelB
  | .sioModem n channelB cts dcd sync =>
    { b with sios := b.sios.modify n fun p => p.setChannel channelB ((p.channel channelB).modem cts dcd sync) }
  | .sioReset n => { b with sios := b.sios.modify n fun p => p.chipReset fun k => b.chipFree tick (1000 * n + 400 + k) }
  | .ctcClocks n count => b.clockCtc n count
  | .ctcEdge n k rising =>
    match b.ctcs[n]? with
    | none => b
    | some p =>
      let r := (p.channel k).edge rising
      { b with ctcs := b.ctcs.set n (p.setChannel k r.1), log := zeroLog r.2 n k ++ b.log }
  | .ctcReset n =>
    { b with ctcs := b.ctcs.modify n fun _ => Ctc.chipReset fun k => b.chipFree tick (1000 * n + 200 + k) }
  | .dmaReady n level => { b with dmas := b.dmas.modify n fun d => { d with readyLine := level } }
  | .dmaReset n => { b with dmas := b.dmas.modify n Dma.chipReset }
  | .ramGuard on => { b with ramGuard := on }

/-- One event, with the free values it draws. -/
def Board.event (b : Board) (tick : Nat) (e : ChipEvent) : Board :=
  let c := b.chipEvent tick e
  { c with draws := c.draws + 1 }

/-- All that the peripherals do at one moment, in order (R470). -/
def Board.events (b : Board) (tick : Nat) (es : List ChipEvent) : Board := es.foldl (fun b e => b.event tick e) b

/-! ## Bus masters -/

/-- One access of the external bus master (R460). -/
def Board.masterAccess (b : Board) (tick : Nat) : MasterAccess → Except Refusal Board
  | .memRead a => .ok { (b.memRead tick (.dma b.draws) a).2 with draws := b.draws + 1 }
  | .memWrite a v => .ok (b.poke a v)
  | .ioRead port => .ok (b.ioRead tick port).2
  | .ioWrite port v => b.ioWrite tick port v

/-- The accesses of the external bus master, in order (R460). -/
def Board.masterAccesses (b : Board) (tick : Nat) : List MasterAccess → Except Refusal Board
  | [] => .ok b
  | x :: rest =>
    match b.masterAccess tick x with
    | .ok b' => b'.masterAccesses tick rest
    | .error e => .error e

/-- The DMA chips look at their RDY inputs, and one whose programme says so makes its interrupt request (R541, R552). -/
def Board.pollDmas (b : Board) : Board :=
  let c := b.wireReady
  { c with dmas := c.dmas.map Dma.poll }

/-- The first DMA chip that has begun a continuous or burst operation and does not give the bus back yet (R542). -/
def Board.busHolder (b : Board) : Option Nat := b.dmas.findIdx? fun d => d.wantsBus && d.holding && d.mode != .transparent

/-- The DMA chip that gets the bus in the given way: outside the refresh times the one that still holds it, which none nearer the head of
the list takes it from (R541, DESIGN CHOICE, log entry 10), else the first of the list that asks for it (R541, R543). -/
def Board.busWanted (b : Board) (transparent : Bool) : Option Nat :=
  match if transparent then none else b.busHolder with
  | some n => some n
  | none => b.dmas.findIdx? fun d => d.wantsBus && ((d.mode == .transparent) == transparent)

/-- One byte of a DMA operation: a read from the source port and, in a transfer, a write to the other (R542, R543). In search and
transfer the byte that matches is itself written and counted before the operation ends (DESIGN CHOICE, log entry 10). -/
def Board.dmaByte (b : Board) (tick n : Nat) : Except Refusal Board :=
  match b.dmas[n]? with
  | none => .ok b
  | some d =>
    let source := if d.aToB then d.portA else d.portB
    let target := if d.aToB then d.portB else d.portA
    let r := if source.io then b.ioRead tick source.addr else b.memRead tick (.dma b.draws) source.addr
    let written :=
      if d.transfers then (if target.io then r.2.ioWrite tick target.addr r.1 else .ok (r.2.poke target.addr r.1))
      else .ok r.2
    match written with
    | .error e => .error e
    | .ok b' =>
      .ok { b' with
        dmas := b'.dmas.modify n fun e => e.afterByte r.1
        log := (if d.pulses then [.dmaPulse n] else []) ++ .dmaByte n r.1 :: b'.log
        draws := b'.draws + 1 }

/-- Up to `count` bytes of DMA operations, each by the chip that `pick` names, as long as it names one (R542, R543). -/
def Board.dmaTurns (pick : Board → Option Nat) (tick : Nat) : Nat → Board → Except Refusal Board
  | 0, b => .ok b
  | count + 1, b =>
    match pick b.pollDmas with
    | none => .ok b.pollDmas
    | some n =>
      match b.pollDmas.dmaByte tick n with
      | .ok b' => Board.dmaTurns pick tick count b'
      | .error e => .error e

/-- A transparent DMA that sees its RDY input active moves a byte in the refresh time of an M1 cycle, while the CPU goes on (R541, R542).
No grant is shown, since the CPU does not leave the bus (DESIGN CHOICE, log entry 6). -/
def Board.transparentByte (b : Board) (tick : Nat) : Except Refusal Board :=
  Board.dmaTurns (fun x => x.busWanted true) tick 1 b

/-- The BUSAK output shows a grant of the bus (R460, R470, R543). -/
def Board.showGrant (b : Board) (granted : Bool) : Board := if granted then { b with log := .busGrant :: b.log } else b

/-- A machine cycle of the CPU ends the pause of a DMA, and while the CPU has the bus no DMA holds it (R542, R543). -/
def Board.resumeDmas (b : Board) : Board := { b with dmas := b.dmas.map fun d => { d with paused := false, holding := false } }

/-- What the bus masters do in a gap between two machine cycles: the external one if it asks for the bus, then the DMA chips (R78,
R460). A continuous or burst operation that has begun goes on until it gives the bus back, at most for a block of every chip (R542,
DESIGN CHOICE, log entry 6). BUSAK shows the grant to the external master, and one to the DMA chips where any of them gets the bus
(R543). No event of a peripheral falls between two of these accesses (R75, DESIGN CHOICE, log entry 6). -/
def Board.release (b : Board) (tick : Nat) (g : Gap) : Except Refusal Board :=
  match (b.showGrant g.busrq).masterAccesses tick g.master with
  | .error e => .error e
  | .ok c =>
    let begins := decide (0 < g.dmaBytes) && (c.pollDmas.busWanted false).isSome
    match Board.dmaTurns (fun x => x.busWanted false) tick g.dmaBytes (c.showGrant begins) with
    | .error e => .error e
    | .ok d =>
      match Board.dmaTurns Board.busHolder tick (d.dmas.length * 65536)
          (d.showGrant (!begins && d.pollDmas.busHolder.isSome)) with
      | .error e => .error e
      | .ok e => .ok e.resumeDmas

end Sys2Proof.Machine
end

