-- ==== Sys2Proof/Machine/Flags.lean ====
section
/-! DEFINITION. Every flag computation of the instruction set, from table 16 as the family rules give it (R30 to R37, R221). In
each function `u` holds the free flag values of the step: it supplies every flag that table 16 marks X, and bits 5 and 3 after any
flag-affecting instruction (R11, D2, D3, D16, D19); `f` are the flags before the instruction. -/

namespace Sys2Proof.Machine

/-- F as the byte that PUSH AF stores: S Z 5 H 3 P/V N C from bit 7 down (R30). -/
def Flags.toByte (f : Flags) : Byte := byteOfBits f.s f.z f.f5 f.h f.f3 f.pv f.n f.c

/-- F from the byte that POP AF loads, all eight bits (R30, R181). -/
def Flags.ofByte (v : Byte) : Flags :=
  { s := v.getLsbD 7, z := v.getLsbD 6, f5 := v.getLsbD 5, h := v.getLsbD 4
    f3 := v.getLsbD 3, pv := v.getLsbD 2, n := v.getLsbD 1, c := v.getLsbD 0 }

/-! ## Carry, half carry, overflow (R221) -/

/-- Carry out of bit 7 of `a + v + c` (R221). -/
def addCarry (a v : Byte) (c : Bool) : Bool := decide (255 < a.toNat + v.toNat + c.toNat)

/-- Carry out of bit 3 of `a + v + c` (R221). -/
def addHalf (a v : Byte) (c : Bool) : Bool := decide (15 < a.toNat % 16 + v.toNat % 16 + c.toNat)

/-- Signed overflow of `a + v + c`: the exact sum is outside -128 to 127 (R221). -/
def addOverflow (a v : Byte) (c : Bool) : Bool :=
  decide (a.toInt + v.toInt + (c.toNat : Int) < -128) || decide (127 < a.toInt + v.toInt + (c.toNat : Int))

/-- Borrow of `a - v - c`: the exact difference is negative (R221). -/
def subCarry (a v : Byte) (c : Bool) : Bool := decide (a.toNat < v.toNat + c.toNat)

/-- Borrow from bit 4 of `a - v - c` (R221). -/
def subHalf (a v : Byte) (c : Bool) : Bool := decide (a.toNat % 16 < v.toNat % 16 + c.toNat)

/-- Signed overflow of `a - v - c` (R221). -/
def subOverflow (a v : Byte) (c : Bool) : Bool :=
  decide (a.toInt - v.toInt - (c.toNat : Int) < -128) || decide (127 < a.toInt - v.toInt - (c.toNat : Int))

/-- A carry as the number added or subtracted. -/
def carryByte (c : Bool) : Byte := BitVec.ofNat 8 c.toNat

/-- A carry as the number added to or subtracted from a word. -/
def carryWord (c : Bool) : Word := BitVec.ofNat 16 c.toNat

/-! ## 8-bit arithmetic and logic (R222 to R229) -/

/-- The flags of an addition `a + v + c` (R221, R222). -/
def addFlags (u : Flags) (a v : Byte) (c : Bool) : Flags :=
  let res := a + v + carryByte c
  { s := res.msb, z := res == 0#8, f5 := u.f5, h := addHalf a v c, f3 := u.f3
    pv := addOverflow a v c, n := false, c := addCarry a v c }

/-- The flags of a subtraction `a - v - c` (R221, R224). -/
def subFlags (u : Flags) (a v : Byte) (c : Bool) : Flags :=
  let res := a - v - carryByte c
  { s := res.msb, z := res == 0#8, f5 := u.f5, h := subHalf a v c, f3 := u.f3
    pv := subOverflow a v c, n := true, c := subCarry a v c }

/-- The flags of a logical operation with result `res`; H is 1 for AND and 0 for OR and XOR (R226 to R228). -/
def logicFlags (u : Flags) (res : Byte) (half : Bool) : Flags :=
  { s := res.msb, z := res == 0#8, f5 := u.f5, h := half, f3 := u.f3
    pv := parityEven res, n := false, c := false }

/-- The eight operations on A and a second operand (R220). -/
inductive AluOp where
  | add | adc | sub | sbc | and | xor | or | cp
deriving DecidableEq, Repr

/-- The new A and F of an operation on A and `v` (R222 to R229); CP leaves A as it is. -/
def alu (op : AluOp) (u f : Flags) (a v : Byte) : Byte × Flags :=
  match op with
  | .add => (a + v, addFlags u a v false)
  | .adc => (a + v + carryByte f.c, addFlags u a v f.c)
  | .sub => (a - v, subFlags u a v false)
  | .sbc => (a - v - carryByte f.c, subFlags u a v f.c)
  | .and => (a &&& v, logicFlags u (a &&& v) true)
  | .xor => (a ^^^ v, logicFlags u (a ^^^ v) false)
  | .or => (a ||| v, logicFlags u (a ||| v) false)
  | .cp => (a, subFlags u a v false)

/-- The byte and flags of INC m: C unchanged (R235, R236). -/
def incByte (u f : Flags) (v : Byte) : Byte × Flags :=
  let res := v + 1#8
  (res, { s := res.msb, z := res == 0#8, f5 := u.f5, h := v.toNat % 16 == 15, f3 := u.f3
          pv := v == 0x7F#8, n := false, c := f.c })

/-- The byte and flags of DEC m: C unchanged (R235, R240). -/
def decByte (u f : Flags) (v : Byte) : Byte × Flags :=
  let res := v - 1#8
  (res, { s := res.msb, z := res == 0#8, f5 := u.f5, h := v.toNat % 16 == 0, f3 := u.f3
          pv := v == 0x80#8, n := true, c := f.c })

/-! ## Accumulator and flag instructions (R247 to R251) -/

/-- The correction that DAA applies (R247). -/
def daaCorrection (f : Flags) (a : Byte) : Byte :=
  (if f.h ∨ 9 < a.toNat % 16 then 0x06#8 else 0x00#8) + (if f.c ∨ 0x99 < a.toNat then 0x60#8 else 0x00#8)

/-- The new A and F of DAA (R247, D6). -/
def daa (u f : Flags) (a : Byte) : Byte × Flags :=
  let corr := daaCorrection f a
  let res := if f.n then a - corr else a + corr
  let half := if f.n then decide (a.toNat % 16 < corr.toNat % 16) else decide (15 < a.toNat % 16 + corr.toNat % 16)
  (res, { s := res.msb, z := res == 0#8, f5 := u.f5, h := half, f3 := u.f3
          pv := parityEven res, n := f.n, c := f.c || decide (0x99 < a.toNat) })

/-- The flags of CPL: H and N set, the others kept (R248). -/
def cplFlags (u f : Flags) : Flags := { f with f5 := u.f5, f3 := u.f3, h := true, n := true }

/-- The flags of NEG with A before: those of 0 - A (R249). -/
def negFlags (u : Flags) (a : Byte) : Flags := subFlags u 0#8 a false

/-- The flags of CCF: C inverted, H free (R250, D3). -/
def ccfFlags (u f : Flags) : Flags := { f with f5 := u.f5, f3 := u.f3, h := u.h, n := false, c := !f.c }

/-- The flags of SCF: C set (R251). -/
def scfFlags (u f : Flags) : Flags := { f with f5 := u.f5, f3 := u.f3, h := false, n := false, c := true }

/-! ## 16-bit arithmetic (R260 to R264) -/

/-- The sum and flags of a 16-bit ADD: S, Z, P/V kept, H free (R260, D16). -/
def addWord (u f : Flags) (x y : Word) : Word × Flags :=
  (x + y, { f with f5 := u.f5, f3 := u.f3, h := u.h, n := false, c := decide (65535 < x.toNat + y.toNat) })

/-- The sum and flags of ADC HL,ss: H free (R263). -/
def adcWord (u f : Flags) (x y : Word) : Word × Flags :=
  let res := x + y + carryWord f.c
  let exact := x.toInt + y.toInt + (f.c.toNat : Int)
  (res, { s := res.msb, z := res == 0#16, f5 := u.f5, h := u.h, f3 := u.f3
          pv := decide (exact < -32768) || decide (32767 < exact), n := false
          c := decide (65535 < x.toNat + y.toNat + f.c.toNat) })

/-- The difference and flags of SBC HL,ss: H free (R264). -/
def sbcWord (u f : Flags) (x y : Word) : Word × Flags :=
  let res := x - y - carryWord f.c
  let exact := x.toInt - y.toInt - (f.c.toNat : Int)
  (res, { s := res.msb, z := res == 0#16, f5 := u.f5, h := u.h, f3 := u.f3
          pv := decide (exact < -32768) || decide (32767 < exact), n := true
          c := decide (x.toNat < y.toNat + f.c.toNat) })

/-! ## Rotates and shifts (R280 to R295) -/

/-- The seven rotates and shifts of the CB group (R295). -/
inductive RotOp where
  | rlc | rrc | rl | rr | sla | sra | srl
deriving DecidableEq, Repr

/-- The result of a rotate or shift, and the bit shifted out; `c` is the carry before (R284 to R290). -/
def rotate (op : RotOp) (c : Bool) (m : Byte) : Byte × Bool :=
  match op with
  | .rlc => ((m <<< 1) ||| carryByte m.msb, m.msb)
  | .rrc => ((m >>> 1) ||| (carryByte (m.getLsbD 0) <<< 7), m.getLsbD 0)
  | .rl => ((m <<< 1) ||| carryByte c, m.msb)
  | .rr => ((m >>> 1) ||| (carryByte c <<< 7), m.getLsbD 0)
  | .sla => (m <<< 1, m.msb)
  | .sra => ((m >>> 1) ||| (m &&& 0x80#8), m.getLsbD 0)
  | .srl => (m >>> 1, m.getLsbD 0)

/-- The byte and flags of a CB-group rotate or shift (R295). -/
def rotByte (op : RotOp) (u f : Flags) (m : Byte) : Byte × Flags :=
  let r := rotate op f.c m
  (r.1, { s := r.1.msb, z := r.1 == 0#8, f5 := u.f5, h := false, f3 := u.f3
          pv := parityEven r.1, n := false, c := r.2 })

/-- The A and flags of RLCA, RRCA, RLA, RRA: S, Z, P/V kept (R280). -/
def rotAcc (op : RotOp) (u f : Flags) (a : Byte) : Byte × Flags :=
  let r := rotate op f.c a
  (r.1, { f with f5 := u.f5, f3 := u.f3, h := false, n := false, c := r.2 })

/-- The flags of RLD, RRD and IN r,(C) for the byte `v`: C kept (R291, R371). -/
def parityFlags (u f : Flags) (v : Byte) : Flags :=
  { s := v.msb, z := v == 0#8, f5 := u.f5, h := false, f3 := u.f3, pv := parityEven v, n := false, c := f.c }

/-! ## Bit test, special loads, block instructions -/

/-- The flags of BIT with the tested bit: Z its complement, S and P/V free (R321, D19). -/
def bitFlags (u f : Flags) (bit : Bool) : Flags :=
  { s := u.s, z := !bit, f5 := u.f5, h := true, f3 := u.f3, pv := u.pv, n := false, c := f.c }

/-- The flags of LD A,I and LD A,R: P/V is IFF2 (R147, R148). -/
def loadSpecialFlags (u f : Flags) (v : Byte) (iff2 : Bool) : Flags :=
  { s := v.msb, z := v == 0#8, f5 := u.f5, h := false, f3 := u.f3, pv := iff2, n := false, c := f.c }

/-- The flags of a block transfer with the decremented counter: S and Z free (R202, D19). -/
def transferFlags (u f : Flags) (counter : Word) : Flags :=
  { s := u.s, z := u.z, f5 := u.f5, h := false, f3 := u.f3, pv := counter != 0#16, n := false, c := f.c }

/-- The flags of a block search of A against `t`: S and H free (R206, D19). -/
def searchFlags (u f : Flags) (a t : Byte) (counter : Word) : Flags :=
  { s := u.s, z := a == t, f5 := u.f5, h := u.h, f3 := u.f3, pv := counter != 0#16, n := true, c := f.c }

/-- The flags of a block input or output with the decremented B: S, H, P/V and C free (R379, D19). -/
def blockIoFlags (u : Flags) (b : Byte) : Flags :=
  { s := u.s, z := b == 0#8, f5 := u.f5, h := u.h, f3 := u.f3, pv := u.pv, n := true, c := u.c }

/-- Whether a condition holds (R331). -/
def Flags.holds (f : Flags) : Cond → Bool
  | .nz => !f.z
  | .z => f.z
  | .nc => !f.c
  | .c => f.c
  | .po => !f.pv
  | .pe => f.pv
  | .p => !f.s
  | .m => f.s

end Sys2Proof.Machine
end

