-- ==== Sys2Proof/Machine/Operands.lean ====
section
/-! DEFINITION. Every operand form (R21 to R29, R94 to R102): reading and writing registers and register pairs, effective addresses,
branch targets, port numbers. Each register has its one home in State, and is reached only through these. -/

namespace Sys2Proof.Machine

/-! ## 8-bit registers -/

/-- The content of a register (R23). -/
def State.reg8 (s : State) : Reg8 → Byte
  | .a => s.regs.a
  | .b => s.regs.b
  | .c => s.regs.c
  | .d => s.regs.d
  | .e => s.regs.e
  | .h => s.regs.h
  | .l => s.regs.l

/-- The state with a register replaced (R23). -/
def State.setReg8 (s : State) (r : Reg8) (v : Byte) : State :=
  match r with
  | .a => { s with regs := { s.regs with a := v } }
  | .b => { s with regs := { s.regs with b := v } }
  | .c => { s with regs := { s.regs with c := v } }
  | .d => { s with regs := { s.regs with d := v } }
  | .e => { s with regs := { s.regs with e := v } }
  | .h => { s with regs := { s.regs with h := v } }
  | .l => { s with regs := { s.regs with l := v } }

/-- The state with the flags replaced. -/
def State.setF (s : State) (f : Flags) : State := { s with regs := { s.regs with f := f } }

/-- The state with A and F replaced. -/
def State.setAF (s : State) (r : Byte × Flags) : State := { s with regs := { s.regs with a := r.1, f := r.2 } }

/-! ## Register pairs -/

/-- The pair BC: B is the high half (R21). -/
def State.bc (s : State) : Word := word s.regs.b s.regs.c

/-- The pair DE: D is the high half (R21). -/
def State.de (s : State) : Word := word s.regs.d s.regs.e

/-- The pair HL: H is the high half (R21). -/
def State.hl (s : State) : Word := word s.regs.h s.regs.l

/-- The pair AF as PUSH AF stores it: A is the high half (R178). -/
def State.af (s : State) : Word := word s.regs.a s.regs.f.toByte

/-- The state with BC replaced. -/
def State.setBC (s : State) (w : Word) : State := { s with regs := { s.regs with b := hi w, c := lo w } }

/-- The state with DE replaced. -/
def State.setDE (s : State) (w : Word) : State := { s with regs := { s.regs with d := hi w, e := lo w } }

/-- The state with HL replaced. -/
def State.setHL (s : State) (w : Word) : State := { s with regs := { s.regs with h := hi w, l := lo w } }

/-- The state with AF replaced, all eight bits of F (R181). -/
def State.setAFWord (s : State) (w : Word) : State :=
  { s with regs := { s.regs with a := hi w, f := Flags.ofByte (lo w) } }

/-- The content of a pair dd or ss (R24, R265). -/
def State.pairSp (s : State) : PairSp → Word
  | .bc => s.bc
  | .de => s.de
  | .hl => s.hl
  | .sp => s.sp

/-- The state with a pair dd or ss replaced (R24). -/
def State.setPairSp (s : State) (p : PairSp) (w : Word) : State :=
  match p with
  | .bc => s.setBC w
  | .de => s.setDE w
  | .hl => s.setHL w
  | .sp => { s with sp := w }

/-- The content of a pair qq (R24). -/
def State.pairAf (s : State) : PairAf → Word
  | .bc => s.bc
  | .de => s.de
  | .hl => s.hl
  | .af => s.af

/-- The state with a pair qq replaced (R24, R181). -/
def State.setPairAf (s : State) (p : PairAf) (w : Word) : State :=
  match p with
  | .bc => s.setBC w
  | .de => s.setDE w
  | .hl => s.setHL w
  | .af => s.setAFWord w

/-- The content of a pair pp (R24, R265). -/
def State.pairIx (s : State) : PairIx → Word
  | .bc => s.bc
  | .de => s.de
  | .ix => s.ix
  | .sp => s.sp

/-- The content of a pair rr (R24, R265). -/
def State.pairIy (s : State) : PairIy → Word
  | .bc => s.bc
  | .de => s.de
  | .iy => s.iy
  | .sp => s.sp

/-! ## Addresses and ports -/

/-- The effective address (IX+d), modulo 65,536 (R96). -/
def State.ixd (s : State) (d : Byte) : Word := s.ix + sext d

/-- The effective address (IY+d), modulo 65,536 (R96). -/
def State.iyd (s : State) (d : Byte) : Word := s.iy + sext d

/-- The target of a relative jump, from the address of the next instruction (R97). -/
def State.branchTarget (s : State) (e : Byte) : Word := s.pc + sext e

/-- The port of IN A,(n) and OUT (n),A: A above, n below (R66, R370, R375). -/
def State.portA (s : State) (n : Byte) : Word := word s.regs.a n

/-- The port of the forms with (C): B above, C below (R66, R371, R376). -/
def State.portBC (s : State) : Word := word s.regs.b s.regs.c

/-! ## Free values -/

/-- The undefined flag values of this step (R11). -/
def State.unspec (s : State) : Flags := Flags.ofByte (Config.freeFlags s.tick)

end Sys2Proof.Machine
end

