-- ==== Sys2Proof/Machine/Ops.lean ====
section
/-! DEFINITION. The named operations that the meanings share: the machine cycles and what may fall between them, memory bytes and
words, the stack, I/O cycles, the arithmetic forms, the refresh counter, and taking an interrupt and returning from one. `s.pc` is
the address after the instruction: all its bytes are fetched before it acts (R92). An operation named `…Then` runs its machine
cycles, each after its gap, and goes on with its last argument. -/

namespace Sys2Proof.Machine

/-- What a step, or the rest of one, answers. -/
abbrev Result := Host.Outcome State Fault Refusal

/-! ## RESET -/

/-- The RESET input (R580): the registers it does not name take free values; the board's boot overlay is switched on (R586). -/
def State.performReset (s : State) : State :=
  let free := fun k => Config.resetWord s.tick k
  let bank := fun k : Nat =>
    ({ a := hi (free k), f := Flags.ofByte (lo (free k)), b := hi (free (k + 1)), c := lo (free (k + 1))
       d := hi (free (k + 2)), e := lo (free (k + 2)), h := hi (free (k + 3)), l := lo (free (k + 3)) } : RegFile)
  { s with
    regs := bank 0, alt := bank 4, ix := free 8, iy := free 9, sp := free 10
    pc := 0x0000#16, i := 0x00#8, r := 0x00#8, iff1 := false, iff2 := false, im := .im0
    halted := false, eiDelay := false, nmiPending := false, gaps := []
    board := { s.board with overlay := s.board.overlay.map fun o => { o with active := true } } }

/-! ## Machine cycles -/

/-- One gap between two machine cycles (R78, R460, R580, D23): the peripherals act; RESET cuts the instruction short, so that what it
has written stays and the rest is lost; else the bus masters may have the bus. An external master acts only where it has asked for
the bus (R470). All events of the gap come before the accesses of the masters, and none falls between two of their bytes, so that RDY
changes there by what the bytes themselves do only (R75, DESIGN CHOICE, log entry 6). An `error` is where the step ends here. -/
def State.takeGap (s : State) (g : Gap) : Except Result State :=
  let b := (s.board.events s.tick g.events).pollDmas
  if g.master ≠ [] ∧ (g.reset = true ∨ g.busrq = false) then .error (.refused .masterWithoutBus)
  else if g.reset then .error (.next { s with board := b }.performReset)
  else
    match b.release s.tick g with
    | .ok c => .ok { s with board := c }
    | .error e => .error (.refused e)

/-- The next gap of this step, if the host lets anything happen in it (R78). -/
def State.gap (s : State) : Except Result State :=
  match s.gaps with
  | [] => .ok s
  | g :: rest => { s with gaps := rest }.takeGap g

/-- The next machine cycle `k`, after its gap. -/
def State.cycle (s : State) (k : State → Result) : Result :=
  match s.gap with
  | .ok t => k t
  | .error o => o

/-- `n` internal cycles, each after its gap: the bus request is sampled at the end of every machine cycle, those without an access among
them (R78, R594, R595). -/
def State.internal (s : State) : Nat → (State → Result) → Result
  | 0, k => k s
  | n + 1, k => s.cycle fun t => t.internal n k

/-- After an M1 cycle: a transparent DMA may use its refresh time (R72, R542), and the step goes on with `k`. -/
def State.afterM1 (s : State) (k : State → Result) : Result :=
  match s.board.transparentByte s.tick with
  | .ok b => k { s with board := b }
  | .error e => .refused e

/-! ## Memory -/

/-- The content of memory at an address (R62). -/
def State.read (s : State) (a : Word) : Byte := s.board.peek s.tick .data a

/-- A data byte read by the CPU, and the state after the cycle: a memory-mapped device sees it (R62). -/
def State.memRead (s : State) (a : Word) : Byte × State :=
  let r := s.board.memRead s.tick .data a
  (r.1, { s with board := r.2 })

/-- The state after a byte of memory has been written (R63). -/
def State.write (s : State) (a : Word) (v : Byte) : State := { s with board := s.board.poke a v }

/-- A read cycle (R62). -/
def State.readThen (s : State) (a : Word) (k : Byte → State → Result) : Result :=
  s.cycle fun t => k (t.memRead a).1 (t.memRead a).2

/-- A write cycle (R63). -/
def State.writeThen (s : State) (a : Word) (v : Byte) (k : State → Result) : Result := s.cycle fun t => k (t.write a v)

/-- A word is read, the low byte first at the lower address (R64, R67). -/
def State.readWordThen (s : State) (a : Word) (k : Word → State → Result) : Result :=
  s.readThen a fun l t => t.readThen (a + 1#16) fun h u => k (word h l) u

/-- A word is written, the low byte first at the lower address (R64, R67). -/
def State.writeWordThen (s : State) (a : Word) (w : Word) (k : State → Result) : Result :=
  s.writeThen a (lo w) fun t => t.writeThen (a + 1#16) (hi w) k

/-- `Push16(w)`: the high byte at SP-1 first, then the low byte at SP-2 (R178). -/
def State.pushThen (s : State) (w : Word) (k : State → Result) : Result :=
  s.writeThen (s.sp - 1#16) (hi w) fun t => t.writeThen (s.sp - 2#16) (lo w) fun u => k { u with sp := s.sp - 2#16 }

/-- `Pop16()`: the low byte at SP first, then the high byte at SP+1; SP is then two higher (R181). -/
def State.popThen (s : State) (k : Word → State → Result) : Result :=
  s.readWordThen s.sp fun w t => k w { t with sp := s.sp + 2#16 }

/-! ## Finishing an instruction -/

/-- The end of every instruction but EI: `ei_delay` is 0 (R43), and the machine goes on. -/
def finish (s : State) : Host.Outcome State Fault Refusal := .next { s with eiDelay := false }

/-- The state at another address. -/
def State.jump (s : State) (target : Word) : State := { s with pc := target }

/-- A jump if the condition holds (R330, R336). -/
def State.jumpIf (s : State) (cond : Bool) (target : Word) : State := if cond then s.jump target else s

/-- CALL: the address after the instruction is pushed (R350). -/
def State.call (s : State) (target : Word) : Result := s.pushThen s.pc fun t => finish (t.jump target)

/-- RET: PC from the stack (R355). -/
def State.ret (s : State) : Result := s.popThen fun w t => finish (t.jump w)

/-- A repeating block instruction that repeats sets PC back by two (R201). -/
def State.repeatIf (s : State) (again : Bool) : State := if again then s.jump (s.pc - 2#16) else s

/-! ## Arithmetic forms -/

/-- One of the eight operations on A and the operand `v` (R220). -/
def State.accumulate (s : State) (op : AluOp) (v : Byte) : State := s.setAF (alu op s.unspec s.regs.f s.regs.a v)

/-- A byte of memory and the flags, replaced by a function of both (R65, R235, R295): a read cycle, then a write cycle to the same
address. -/
def State.modify (s : State) (a : Word) (g : Flags → Flags → Byte → Byte × Flags) : Result :=
  s.readThen a fun v t =>
    let r := g s.unspec s.regs.f v
    t.writeThen a r.1 fun u => finish (u.setF r.2)

/-- A byte of memory, replaced by a function of it, without flags (R65, R313, R316): a read cycle, then a write cycle to the same
address. -/
def State.rewrite (s : State) (a : Word) (g : Byte → Byte) : Result :=
  s.readThen a fun v t => t.writeThen a (g v) finish

/-- A register and the flags, replaced by a function of both (R236, R295). -/
def State.modifyReg (s : State) (r : Reg8) (g : Flags → Flags → Byte → Byte × Flags) : State :=
  let p := g s.unspec s.regs.f (s.reg8 r)
  (s.setReg8 r p.1).setF p.2

/-- BIT: only the flags change (R321). -/
def State.testBit (s : State) (b : Nat) (v : Byte) : State := s.setF (bitFlags s.unspec s.regs.f (v.getLsbD b))

/-- A byte with bit `b` at 1 (R313). -/
def setBit (b : Nat) (v : Byte) : Byte := v ||| bitMask b

/-- A byte with bit `b` at 0 (R316). -/
def resetBit (b : Nat) (v : Byte) : Byte := v &&& ~~~bitMask b

/-! ## Block instructions -/

/-- The step of a block pointer: up or down by one, modulo 65,536 (R200). -/
def stepPointer (down : Bool) (w : Word) : Word := if down then w - 1#16 else w + 1#16

/-- The registers after a block transfer (R202, R203): both pointers stepped, BC counted down. -/
def State.afterTransfer (s : State) (down : Bool) : State :=
  let counter := s.bc - 1#16
  (((s.setDE (stepPointer down s.de)).setHL (stepPointer down s.hl)).setBC counter).setF
    (transferFlags s.unspec s.regs.f counter)

/-- One block transfer (R202, R203): a byte from (HL) to (DE), then the registers; `again` sets PC back for a form that repeats, after an
internal cycle (R210). -/
def State.blockTransfer (s : State) (down again : Bool) : Result :=
  s.readThen s.hl fun v t =>
    t.writeThen s.de v fun u => u.internal again.toNat fun w => finish ((w.afterTransfer down).repeatIf again)

/-- The registers after a block search that found the byte `v` (R206, R207): A against it, the pointer stepped, BC counted down. -/
def State.afterSearch (s : State) (down : Bool) (v : Byte) : State :=
  let counter := s.bc - 1#16
  ((s.setHL (stepPointer down s.hl)).setBC counter).setF (searchFlags s.unspec s.regs.f s.regs.a v counter)

/-- A search that `repeats` does so where the counter is not yet zero and the byte `v` differs from A (R208, R209). -/
def State.searchAgain (s : State) (repeats : Bool) (v : Byte) : Bool := repeats && (s.bc - 1#16 != 0#16) && (s.regs.a != v)

/-- One block search (R206, R207): a byte from (HL), one further cycle without an access, then the registers; where the search goes on, PC
is set back after one more internal cycle (R208 to R210). -/
def State.blockSearch (s : State) (down repeats : Bool) : Result :=
  s.readThen s.hl fun v t =>
    t.internal (1 + (s.searchAgain repeats v).toNat) fun u =>
      finish ((u.afterSearch down v).repeatIf (s.searchAgain repeats v))

/-! ## I/O -/

/-- An I/O read cycle, with the device's side effects (R66). -/
def State.portReadThen (s : State) (port : Word) (k : Byte → State → Result) : Result :=
  s.cycle fun t => k (t.board.ioRead t.tick port).1 { t with board := (t.board.ioRead t.tick port).2 }

/-- An I/O write cycle (R66). A chip may refuse the word. -/
def State.portWriteThen (s : State) (port : Word) (v : Byte) (k : State → Result) : Result :=
  s.cycle fun t =>
    match t.board.ioWrite t.tick port v with
    | .ok b => k { t with board := b }
    | .error e => .refused e

/-- The registers after a block input or output (R380, R384): the pointer stepped, B counted down. -/
def State.afterBlockIo (s : State) (down : Bool) : State :=
  ((s.setHL (stepPointer down s.hl)).setReg8 .b (s.regs.b - 1#8)).setF (blockIoFlags s.unspec (s.regs.b - 1#8))

/-- One block input (R380, R381): the port is addressed with B before it is counted down, its byte goes to (HL); `again` sets PC back
for a form that repeats, after an internal cycle (R595). -/
def State.blockInput (s : State) (down again : Bool) : Result :=
  s.portReadThen s.portBC fun v t =>
    t.writeThen s.hl v fun u => u.internal again.toNat fun w => finish ((w.afterBlockIo down).repeatIf again)

/-- One block output (R384, R385): a byte from (HL) to the port, which is addressed with B already counted down; `again` sets PC back
for a form that repeats, after an internal cycle (R595). -/
def State.blockOutput (s : State) (down again : Bool) : Result :=
  s.readThen s.hl fun v t =>
    t.portWriteThen (word (s.regs.b - 1#8) s.regs.c) v fun u =>
      u.internal again.toNat fun w => finish ((w.afterBlockIo down).repeatIf again)

/-! ## The refresh counter -/

/-- R after `n` M1 cycles: bits 6 to 0 count modulo 128, bit 7 is kept (R38). -/
def refresh (r : Byte) (n : Nat) : Byte := (r &&& 0x80#8) ||| ((r + BitVec.ofNat 8 n) &&& 0x7F#8)

/-- R after time in the HALT state: bits 6 to 0 are free, bit 7 is kept (R38, R452, D7). -/
def State.haltedR (s : State) : Byte := (s.r &&& 0x80#8) ||| (Config.freeRefresh s.tick).setWidth 8

/-! ## Taking an interrupt and returning from one -/

/-- What an acceptance does first (R426, R434): the HALT state ends, R becoming unknown if it was in it (R452), `ei_delay` is
cleared, IFF1 is cleared, and the M1 cycle of the response counts R. -/
def State.respond (s : State) : State :=
  { s with
    halted := false, eiDelay := false, iff1 := false
    r := refresh (if s.halted then s.haltedR else s.r) 1 }

/-- Taking an exception: the address of the next instruction is pushed and control goes to `target` (R426, R437, R438). No flag and
no other register is saved (R450). -/
def State.enter (s : State) (target : Word) : Result := s.pushThen s.pc fun t => .next (t.jump target)

/-- Acceptance of a non-maskable interrupt (R426): the latch is cleared, IFF2 keeps the enable; an opcode byte is read at PC and
ignored, which a memory-mapped device sees. -/
def State.takeNmi (s : State) : Result :=
  let t := { s.respond with nmiPending := false }
  { t with board := (t.board.memRead t.tick .fetch t.pc).2 }.afterM1 fun u => u.enter 0x0066#16

/-- The common part of a maskable interrupt (R434): IFF2 is cleared too. -/
def State.respondInt (s : State) : State := { s.respond with iff2 := false }

/-- The mode 2 entry (R440): the push comes first, then the two reads of the table entry at I:v. -/
def State.enterByTable (s : State) (v : Byte) : Result :=
  s.pushThen s.pc fun t => t.readWordThen (word s.i v) fun w u => .next (u.jump w)

/-- An operand cycle of a supplied CALL, after its gap: the host's next byte. That there is one is the host's duty (R437, R470). -/
def State.operandThen (s : State) (ops : List Byte) (k : Byte → List Byte → State → Result) : Result :=
  s.cycle fun t =>
    match ops with
    | [] => .refused .mode0CallWithoutOperands
    | v :: rest => k v rest t

/-- What a supplied byte does in the three modes, on the state after the acknowledge cycle; `ops` holds the operand bytes of a
supplied CALL, each from a cycle of its own (R437, R438, R440). -/
def State.serveInt (s : State) (v : Byte) (ops : List Byte) : Result :=
  match s.im with
  | .im0 =>
    if v &&& 0xC7#8 = 0xC7#8 then s.enter (word 0#8 (v &&& 0x38#8))
    else if v = 0xCD#8 then
      s.operandThen ops fun opLo more t => t.operandThen more fun opHi _ u => u.enter (word opHi opLo)
    else .refused (.mode0InstructionNotRstOrCall v)
  | .im1 => s.enter 0x0038#16
  | .im2 => if v.getLsbD 0 then .refused (.oddMode2Vector v) else s.enterByTable v

/-- The byte of an acknowledge cycle and those for the two operand cycles that may follow, with the state after them (R436, R445): the
vector of the chain's unit, which goes under service; else what the host drives; else any value. That the chain's unit answers
where a device of the host's requests too is the model's (DESIGN CHOICE, log entry 17). -/
def State.intAck (s : State) (ack : List Byte) : Byte × List Byte × State :=
  match s.board.requester with
  | some u =>
    let v := s.board.vector u
    let b := s.board.acknowledge u
    (v, ack, { s with board := { b with log := .intAck v :: b.log } })
  | none =>
    let v := ack.headD (Config.ackByte s.tick)
    (v, ack.tail, { s with board := { s.board with log := .intAck v :: s.board.log } })

/-- Acceptance of a maskable interrupt (R434 to R440). -/
def State.takeInt (s : State) (ack : List Byte) : Result :=
  let r := s.respondInt.intAck ack
  r.2.2.afterM1 fun t => t.serveInt r.1 r.2.1

/-- RETN's part beyond RET: IFF1 takes IFF2 (R358, R430). -/
def State.restoreEnable (s : State) : State := { s with iff1 := s.iff2 }

/-- RETI's part beyond RET: the chips are told (R357, R451, R560). -/
def State.endOfService (s : State) : State := { s with board := s.board.notifyReti }

/-- A step in the HALT state in which nothing arrives (R402 c): only R[6:0] changes, to a free value. How many internal NOPs it stands for
is not fixed; a transparent DMA gets the refresh time of one of them (DESIGN CHOICE, log entry 6). -/
def State.idle (s : State) : Result := s.afterM1 fun t => .next { t with r := t.haltedR }

end Sys2Proof.Machine
end

