-- ==== Sys2Proof/Machine/Arith16.lean ====
section
/-! DEFINITION. The meanings of 16-bit arithmetic (R260 to R275). All bytes are fetched before, so `s.pc` is the address after
the instruction (R92). -/

namespace Sys2Proof.Machine

/-- ADD HL,ss (R260). -/
def execAddHlSs (ss : PairSp) (s : State) : Host.Outcome State Fault Refusal :=
  finish ((s.setHL (addWord s.unspec s.regs.f s.hl (s.pairSp ss)).1).setF
    (addWord s.unspec s.regs.f s.hl (s.pairSp ss)).2)

/-- ADD IX,pp (R261). -/
def execAddIxPp (pp : PairIx) (s : State) : Host.Outcome State Fault Refusal :=
  finish ({ s with ix := (addWord s.unspec s.regs.f s.ix (s.pairIx pp)).1 }.setF
    (addWord s.unspec s.regs.f s.ix (s.pairIx pp)).2)

/-- ADD IY,rr (R262). -/
def execAddIyRr (rr : PairIy) (s : State) : Host.Outcome State Fault Refusal :=
  finish ({ s with iy := (addWord s.unspec s.regs.f s.iy (s.pairIy rr)).1 }.setF
    (addWord s.unspec s.regs.f s.iy (s.pairIy rr)).2)

/-- ADC HL,ss (R263). -/
def execAdcHlSs (ss : PairSp) (s : State) : Host.Outcome State Fault Refusal :=
  finish ((s.setHL (adcWord s.unspec s.regs.f s.hl (s.pairSp ss)).1).setF
    (adcWord s.unspec s.regs.f s.hl (s.pairSp ss)).2)

/-- SBC HL,ss (R264). -/
def execSbcHlSs (ss : PairSp) (s : State) : Host.Outcome State Fault Refusal :=
  finish ((s.setHL (sbcWord s.unspec s.regs.f s.hl (s.pairSp ss)).1).setF
    (sbcWord s.unspec s.regs.f s.hl (s.pairSp ss)).2)

/-- INC ss (R270). -/
def execIncSs (ss : PairSp) (s : State) : Host.Outcome State Fault Refusal :=
  finish (s.setPairSp ss (s.pairSp ss + 1#16))

/-- INC IX (R271). -/
def execIncIx (s : State) : Host.Outcome State Fault Refusal := finish { s with ix := s.ix + 1#16 }

/-- INC IY (R272). -/
def execIncIy (s : State) : Host.Outcome State Fault Refusal := finish { s with iy := s.iy + 1#16 }

/-- DEC ss (R273). -/
def execDecSs (ss : PairSp) (s : State) : Host.Outcome State Fault Refusal :=
  finish (s.setPairSp ss (s.pairSp ss - 1#16))

/-- DEC IX (R274). -/
def execDecIx (s : State) : Host.Outcome State Fault Refusal := finish { s with ix := s.ix - 1#16 }

/-- DEC IY (R275). -/
def execDecIy (s : State) : Host.Outcome State Fault Refusal := finish { s with iy := s.iy - 1#16 }

end Sys2Proof.Machine
end

