-- ==== Sys2Proof/Machine/Arith8.lean ====
section
/-! DEFINITION. The meanings of the eight operations on A (R220 to R229). All bytes are fetched before, so `s.pc` is the address after
the instruction (R92). -/

namespace Sys2Proof.Machine

/-- ADD A,r (R222). -/
def execAddAR (r : Reg8) (s : State) : Host.Outcome State Fault Refusal :=
  finish (s.accumulate .add (s.reg8 r))

/-- ADD A,n (R222). -/
def execAddAN (n : Byte) (s : State) : Host.Outcome State Fault Refusal := finish (s.accumulate .add n)

/-- ADD A,(HL) (R222). -/
def execAddAHl (s : State) : Host.Outcome State Fault Refusal := s.readThen s.hl fun v t => finish (t.accumulate .add v)

/-- ADD A,(IX+d) (R222). -/
def execAddAIx (d : Byte) (s : State) : Host.Outcome State Fault Refusal :=
  s.readThen (s.ixd d) fun v t => finish (t.accumulate .add v)

/-- ADD A,(IY+d) (R222). -/
def execAddAIy (d : Byte) (s : State) : Host.Outcome State Fault Refusal :=
  s.readThen (s.iyd d) fun v t => finish (t.accumulate .add v)

/-- ADC A,r (R223). -/
def execAdcAR (r : Reg8) (s : State) : Host.Outcome State Fault Refusal :=
  finish (s.accumulate .adc (s.reg8 r))

/-- ADC A,n (R223). -/
def execAdcAN (n : Byte) (s : State) : Host.Outcome State Fault Refusal := finish (s.accumulate .adc n)

/-- ADC A,(HL) (R223). -/
def execAdcAHl (s : State) : Host.Outcome State Fault Refusal := s.readThen s.hl fun v t => finish (t.accumulate .adc v)

/-- ADC A,(IX+d) (R223). -/
def execAdcAIx (d : Byte) (s : State) : Host.Outcome State Fault Refusal :=
  s.readThen (s.ixd d) fun v t => finish (t.accumulate .adc v)

/-- ADC A,(IY+d) (R223). -/
def execAdcAIy (d : Byte) (s : State) : Host.Outcome State Fault Refusal :=
  s.readThen (s.iyd d) fun v t => finish (t.accumulate .adc v)

/-- SUB r (R224). -/
def execSubR (r : Reg8) (s : State) : Host.Outcome State Fault Refusal :=
  finish (s.accumulate .sub (s.reg8 r))

/-- SUB n (R224). -/
def execSubN (n : Byte) (s : State) : Host.Outcome State Fault Refusal := finish (s.accumulate .sub n)

/-- SUB (HL) (R224). -/
def execSubHl (s : State) : Host.Outcome State Fault Refusal := s.readThen s.hl fun v t => finish (t.accumulate .sub v)

/-- SUB (IX+d) (R224). -/
def execSubIx (d : Byte) (s : State) : Host.Outcome State Fault Refusal :=
  s.readThen (s.ixd d) fun v t => finish (t.accumulate .sub v)

/-- SUB (IY+d) (R224). -/
def execSubIy (d : Byte) (s : State) : Host.Outcome State Fault Refusal :=
  s.readThen (s.iyd d) fun v t => finish (t.accumulate .sub v)

/-- SBC A,r (R225). -/
def execSbcAR (r : Reg8) (s : State) : Host.Outcome State Fault Refusal :=
  finish (s.accumulate .sbc (s.reg8 r))

/-- SBC A,n (R225). -/
def execSbcAN (n : Byte) (s : State) : Host.Outcome State Fault Refusal := finish (s.accumulate .sbc n)

/-- SBC A,(HL) (R225). -/
def execSbcAHl (s : State) : Host.Outcome State Fault Refusal := s.readThen s.hl fun v t => finish (t.accumulate .sbc v)

/-- SBC A,(IX+d) (R225). -/
def execSbcAIx (d : Byte) (s : State) : Host.Outcome State Fault Refusal :=
  s.readThen (s.ixd d) fun v t => finish (t.accumulate .sbc v)

/-- SBC A,(IY+d) (R225). -/
def execSbcAIy (d : Byte) (s : State) : Host.Outcome State Fault Refusal :=
  s.readThen (s.iyd d) fun v t => finish (t.accumulate .sbc v)

/-- AND r (R226). -/
def execAndR (r : Reg8) (s : State) : Host.Outcome State Fault Refusal :=
  finish (s.accumulate .and (s.reg8 r))

/-- AND n (R226). -/
def execAndN (n : Byte) (s : State) : Host.Outcome State Fault Refusal := finish (s.accumulate .and n)

/-- AND (HL) (R226). -/
def execAndHl (s : State) : Host.Outcome State Fault Refusal := s.readThen s.hl fun v t => finish (t.accumulate .and v)

/-- AND (IX+d) (R226). -/
def execAndIx (d : Byte) (s : State) : Host.Outcome State Fault Refusal :=
  s.readThen (s.ixd d) fun v t => finish (t.accumulate .and v)

/-- AND (IY+d) (R226). -/
def execAndIy (d : Byte) (s : State) : Host.Outcome State Fault Refusal :=
  s.readThen (s.iyd d) fun v t => finish (t.accumulate .and v)

/-- XOR r (R227). -/
def execXorR (r : Reg8) (s : State) : Host.Outcome State Fault Refusal :=
  finish (s.accumulate .xor (s.reg8 r))

/-- XOR n (R227). -/
def execXorN (n : Byte) (s : State) : Host.Outcome State Fault Refusal := finish (s.accumulate .xor n)

/-- XOR (HL) (R227). -/
def execXorHl (s : State) : Host.Outcome State Fault Refusal := s.readThen s.hl fun v t => finish (t.accumulate .xor v)

/-- XOR (IX+d) (R227). -/
def execXorIx (d : Byte) (s : State) : Host.Outcome State Fault Refusal :=
  s.readThen (s.ixd d) fun v t => finish (t.accumulate .xor v)

/-- XOR (IY+d) (R227). -/
def execXorIy (d : Byte) (s : State) : Host.Outcome State Fault Refusal :=
  s.readThen (s.iyd d) fun v t => finish (t.accumulate .xor v)

/-- OR r (R228). -/
def execOrR (r : Reg8) (s : State) : Host.Outcome State Fault Refusal := finish (s.accumulate .or (s.reg8 r))

/-- OR n (R228). -/
def execOrN (n : Byte) (s : State) : Host.Outcome State Fault Refusal := finish (s.accumulate .or n)

/-- OR (HL) (R228). -/
def execOrHl (s : State) : Host.Outcome State Fault Refusal := s.readThen s.hl fun v t => finish (t.accumulate .or v)

/-- OR (IX+d) (R228). -/
def execOrIx (d : Byte) (s : State) : Host.Outcome State Fault Refusal :=
  s.readThen (s.ixd d) fun v t => finish (t.accumulate .or v)

/-- OR (IY+d) (R228). -/
def execOrIy (d : Byte) (s : State) : Host.Outcome State Fault Refusal :=
  s.readThen (s.iyd d) fun v t => finish (t.accumulate .or v)

/-- CP r (R229). -/
def execCpR (r : Reg8) (s : State) : Host.Outcome State Fault Refusal := finish (s.accumulate .cp (s.reg8 r))

/-- CP n (R229). -/
def execCpN (n : Byte) (s : State) : Host.Outcome State Fault Refusal := finish (s.accumulate .cp n)

/-- CP (HL) (R229). -/
def execCpHl (s : State) : Host.Outcome State Fault Refusal := s.readThen s.hl fun v t => finish (t.accumulate .cp v)

/-- CP (IX+d) (R229). -/
def execCpIx (d : Byte) (s : State) : Host.Outcome State Fault Refusal :=
  s.readThen (s.ixd d) fun v t => finish (t.accumulate .cp v)

/-- CP (IY+d) (R229). -/
def execCpIy (d : Byte) (s : State) : Host.Outcome State Fault Refusal :=
  s.readThen (s.iyd d) fun v t => finish (t.accumulate .cp v)

end Sys2Proof.Machine
end

