-- ==== Sys2Proof/Machine/Bit.lean ====
section
/-! DEFINITION. The meanings of BIT, SET and RES (R310 to R321). All bytes are fetched before, so `s.pc` is the address after
the instruction (R92). -/

namespace Sys2Proof.Machine

/-- BIT b,r (R310). -/
def execBitR (b : Nat) (r : Reg8) (s : State) : Host.Outcome State Fault Refusal :=
  finish (s.testBit b (s.reg8 r))

/-- BIT b,(HL) (R311). -/
def execBitHl (b : Nat) (s : State) : Host.Outcome State Fault Refusal := s.readThen s.hl fun v t => finish (t.testBit b v)

/-- BIT b,(IX+d) (R312). -/
def execBitIx (b : Nat) (d : Byte) (s : State) : Host.Outcome State Fault Refusal :=
  s.readThen (s.ixd d) fun v t => finish (t.testBit b v)

/-- BIT b,(IY+d) (R312). -/
def execBitIy (b : Nat) (d : Byte) (s : State) : Host.Outcome State Fault Refusal :=
  s.readThen (s.iyd d) fun v t => finish (t.testBit b v)

/-- SET b,r (R313). -/
def execSetR (b : Nat) (r : Reg8) (s : State) : Host.Outcome State Fault Refusal :=
  finish (s.setReg8 r (setBit b (s.reg8 r)))

/-- SET b,(HL) (R314). -/
def execSetHl (b : Nat) (s : State) : Host.Outcome State Fault Refusal :=
  s.rewrite s.hl (setBit b)

/-- SET b,(IX+d) (R315). -/
def execSetIx (b : Nat) (d : Byte) (s : State) : Host.Outcome State Fault Refusal :=
  s.rewrite (s.ixd d) (setBit b)

/-- SET b,(IY+d) (R315). -/
def execSetIy (b : Nat) (d : Byte) (s : State) : Host.Outcome State Fault Refusal :=
  s.rewrite (s.iyd d) (setBit b)

/-- RES b,r (R316). -/
def execResR (b : Nat) (r : Reg8) (s : State) : Host.Outcome State Fault Refusal :=
  finish (s.setReg8 r (resetBit b (s.reg8 r)))

/-- RES b,(HL) (R317). -/
def execResHl (b : Nat) (s : State) : Host.Outcome State Fault Refusal :=
  s.rewrite s.hl (resetBit b)

/-- RES b,(IX+d) (R318). -/
def execResIx (b : Nat) (d : Byte) (s : State) : Host.Outcome State Fault Refusal :=
  s.rewrite (s.ixd d) (resetBit b)

/-- RES b,(IY+d) (R318). -/
def execResIy (b : Nat) (d : Byte) (s : State) : Host.Outcome State Fault Refusal :=
  s.rewrite (s.iyd d) (resetBit b)

end Sys2Proof.Machine
end

