-- ==== Sys2Proof/Machine/Block.lean ====
section
/-! DEFINITION. The meanings of block transfer and block search (R200 to R209). All bytes are fetched before, so `s.pc` is the address after
the instruction (R92). -/

namespace Sys2Proof.Machine

/-- LDI (R202). -/
def execLdi (s : State) : Host.Outcome State Fault Refusal := s.blockTransfer false false

/-- LDD (R203). -/
def execLdd (s : State) : Host.Outcome State Fault Refusal := s.blockTransfer true false

/-- LDIR (R204). One iteration. -/
def execLdir (s : State) : Host.Outcome State Fault Refusal :=
  s.blockTransfer false (s.bc - 1#16 != 0#16)

/-- LDDR (R205). One iteration. -/
def execLddr (s : State) : Host.Outcome State Fault Refusal :=
  s.blockTransfer true (s.bc - 1#16 != 0#16)

/-- CPI (R206). -/
def execCpi (s : State) : Host.Outcome State Fault Refusal := s.blockSearch false false

/-- CPD (R207). -/
def execCpd (s : State) : Host.Outcome State Fault Refusal := s.blockSearch true false

/-- CPIR (R208). One iteration. -/
def execCpir (s : State) : Host.Outcome State Fault Refusal :=
  s.blockSearch false true

/-- CPDR (R209). One iteration. -/
def execCpdr (s : State) : Host.Outcome State Fault Refusal :=
  s.blockSearch true true

end Sys2Proof.Machine
end

