-- ==== Sys2Proof/Machine/Control.lean ====
section
/-! DEFINITION. The meanings of CPU control (R401 to R408). All bytes are fetched before, so `s.pc` is the address after
the instruction (R92). -/

namespace Sys2Proof.Machine

/-- NOP (R401). -/
def execNop (s : State) : Host.Outcome State Fault Refusal := finish s

/-- HALT (R402). PC stays after the HALT byte (D13). -/
def execHalt (s : State) : Host.Outcome State Fault Refusal := finish { s with halted := true }

/-- DI (R403). -/
def execDi (s : State) : Host.Outcome State Fault Refusal := finish { s with iff1 := false, iff2 := false }

/-- EI (R404). The only instruction that leaves `ei_delay` set. -/
def execEi (s : State) : Host.Outcome State Fault Refusal :=
  .next { s with iff1 := true, iff2 := true, eiDelay := true }

/-- IM 0 (R405). -/
def execIm0 (s : State) : Host.Outcome State Fault Refusal := finish { s with im := .im0 }

/-- IM 1 (R406). -/
def execIm1 (s : State) : Host.Outcome State Fault Refusal := finish { s with im := .im1 }

/-- IM 2 (R407). -/
def execIm2 (s : State) : Host.Outcome State Fault Refusal := finish { s with im := .im2 }

end Sys2Proof.Machine
end

