-- ==== Sys2Proof/Machine/Exchange.lean ====
section
/-! DEFINITION. The meanings of the exchanges (R185 to R190). All bytes are fetched before, so `s.pc` is the address after
the instruction (R92). -/

namespace Sys2Proof.Machine

/-- The memory side of EX (SP) (R188): the word at SP is read, low byte first; then `w` is written, its high byte first, at SP+1, and
its low byte at SP. Four machine cycles, none bound to the next. -/
def State.exchangeTop (s : State) (w : Word) (k : Word → State → Result) : Result :=
  s.readWordThen s.sp fun old t =>
    t.writeThen (s.sp + 1#16) (hi w) fun u => u.writeThen s.sp (lo w) fun x => k old x

/-- EX DE,HL (R185). -/
def execExDeHl (s : State) : Host.Outcome State Fault Refusal := finish ((s.setDE s.hl).setHL s.de)

/-- EX AF,AF' (R186). -/
def execExAfAf (s : State) : Host.Outcome State Fault Refusal :=
  finish { s with
    regs := { s.regs with a := s.alt.a, f := s.alt.f }
    alt := { s.alt with a := s.regs.a, f := s.regs.f } }

/-- EXX (R187). -/
def execExx (s : State) : Host.Outcome State Fault Refusal :=
  finish { s with
    regs := { s.alt with a := s.regs.a, f := s.regs.f }
    alt := { s.regs with a := s.alt.a, f := s.alt.f } }

/-- EX (SP),HL (R188). -/
def execExSpHl (s : State) : Host.Outcome State Fault Refusal := s.exchangeTop s.hl fun old t => finish (t.setHL old)

/-- EX (SP),IX (R189). -/
def execExSpIx (s : State) : Host.Outcome State Fault Refusal :=
  s.exchangeTop s.ix fun old t => finish { t with ix := old }

/-- EX (SP),IY (R190). -/
def execExSpIy (s : State) : Host.Outcome State Fault Refusal :=
  s.exchangeTop s.iy fun old t => finish { t with iy := old }

end Sys2Proof.Machine
end

