-- ==== Sys2Proof/Machine/InOut.lean ====
section
/-! DEFINITION. The meanings of input and output (R370 to R387). All bytes are fetched before, so `s.pc` is the address after
the instruction (R92). -/

namespace Sys2Proof.Machine

/-- IN A,(n) (R370). -/
def execInAN (n : Byte) (s : State) : Host.Outcome State Fault Refusal :=
  s.portReadThen (s.portA n) fun v t => finish (t.setReg8 .a v)

/-- IN r,(C) (R371). -/
def execInRC (r : Reg8) (s : State) : Host.Outcome State Fault Refusal :=
  s.portReadThen s.portBC fun v t => finish ((t.setReg8 r v).setF (parityFlags s.unspec s.regs.f v))

/-- OUT (n),A (R375). -/
def execOutNA (n : Byte) (s : State) : Host.Outcome State Fault Refusal := s.portWriteThen (s.portA n) s.regs.a finish

/-- OUT (C),r (R376). -/
def execOutCR (r : Reg8) (s : State) : Host.Outcome State Fault Refusal := s.portWriteThen s.portBC (s.reg8 r) finish

/-- INI (R380). -/
def execIni (s : State) : Host.Outcome State Fault Refusal := s.blockInput false false

/-- IND (R381). -/
def execInd (s : State) : Host.Outcome State Fault Refusal := s.blockInput true false

/-- INIR (R382). One iteration. -/
def execInir (s : State) : Host.Outcome State Fault Refusal :=
  s.blockInput false (s.regs.b - 1#8 != 0#8)

/-- INDR (R383). One iteration. -/
def execIndr (s : State) : Host.Outcome State Fault Refusal :=
  s.blockInput true (s.regs.b - 1#8 != 0#8)

/-- OUTI (R384). -/
def execOuti (s : State) : Host.Outcome State Fault Refusal := s.blockOutput false false

/-- OUTD (R385). -/
def execOutd (s : State) : Host.Outcome State Fault Refusal := s.blockOutput true false

/-- OTIR (R386). One iteration. -/
def execOtir (s : State) : Host.Outcome State Fault Refusal := s.blockOutput false (s.regs.b - 1#8 != 0#8)

/-- OTDR (R387). One iteration. -/
def execOtdr (s : State) : Host.Outcome State Fault Refusal := s.blockOutput true (s.regs.b - 1#8 != 0#8)

end Sys2Proof.Machine
end

