-- ==== Sys2Proof/Machine/IncDec8.lean ====
section
/-! DEFINITION. The meanings of INC and DEC of a byte (R235 to R243). All bytes are fetched before, so `s.pc` is the address after
the instruction (R92). -/

namespace Sys2Proof.Machine

/-- INC r (R236). -/
def execIncR (r : Reg8) (s : State) : Host.Outcome State Fault Refusal := finish (s.modifyReg r incByte)

/-- INC (HL) (R237). -/
def execIncHl (s : State) : Host.Outcome State Fault Refusal := s.modify s.hl incByte

/-- INC (IX+d) (R238). -/
def execIncIxd (d : Byte) (s : State) : Host.Outcome State Fault Refusal :=
  s.modify (s.ixd d) incByte

/-- INC (IY+d) (R239). -/
def execIncIyd (d : Byte) (s : State) : Host.Outcome State Fault Refusal :=
  s.modify (s.iyd d) incByte

/-- DEC r (R240). -/
def execDecR (r : Reg8) (s : State) : Host.Outcome State Fault Refusal := finish (s.modifyReg r decByte)

/-- DEC (HL) (R241). -/
def execDecHl (s : State) : Host.Outcome State Fault Refusal := s.modify s.hl decByte

/-- DEC (IX+d) (R242). -/
def execDecIxd (d : Byte) (s : State) : Host.Outcome State Fault Refusal :=
  s.modify (s.ixd d) decByte

/-- DEC (IY+d) (R243). -/
def execDecIyd (d : Byte) (s : State) : Host.Outcome State Fault Refusal :=
  s.modify (s.iyd d) decByte

end Sys2Proof.Machine
end

