-- ==== Sys2Proof/Machine/Jump.lean ====
section
/-! DEFINITION. The meanings of jumps, calls, returns and restarts (R330 to R362). All bytes are fetched before, so `s.pc` is the address after
the instruction (R92). -/

namespace Sys2Proof.Machine

/-- JP nn (R335). -/
def execJpNn (nn : Word) (s : State) : Host.Outcome State Fault Refusal := finish (s.jump nn)

/-- JP cc,nn (R336). -/
def execJpCcNn (cc : Cond) (nn : Word) (s : State) : Host.Outcome State Fault Refusal :=
  finish (s.jumpIf (s.regs.f.holds cc) nn)

/-- JP (HL) (R337). No memory is read. -/
def execJpHl (s : State) : Host.Outcome State Fault Refusal := finish (s.jump s.hl)

/-- JP (IX) (R338). No memory is read. -/
def execJpIx (s : State) : Host.Outcome State Fault Refusal := finish (s.jump s.ix)

/-- JP (IY) (R339). No memory is read. -/
def execJpIy (s : State) : Host.Outcome State Fault Refusal := finish (s.jump s.iy)

/-- JR e (R340). -/
def execJrE (e : Byte) (s : State) : Host.Outcome State Fault Refusal := finish (s.jump (s.branchTarget e))

/-- JR NZ,e (R341). -/
def execJrNz (e : Byte) (s : State) : Host.Outcome State Fault Refusal :=
  finish (s.jumpIf (s.regs.f.holds .nz) (s.branchTarget e))

/-- JR Z,e (R342). -/
def execJrZ (e : Byte) (s : State) : Host.Outcome State Fault Refusal :=
  finish (s.jumpIf (s.regs.f.holds .z) (s.branchTarget e))

/-- JR NC,e (R343). -/
def execJrNc (e : Byte) (s : State) : Host.Outcome State Fault Refusal :=
  finish (s.jumpIf (s.regs.f.holds .nc) (s.branchTarget e))

/-- JR C,e (R344). -/
def execJrC (e : Byte) (s : State) : Host.Outcome State Fault Refusal :=
  finish (s.jumpIf (s.regs.f.holds .c) (s.branchTarget e))

/-- DJNZ e (R345). -/
def execDjnz (e : Byte) (s : State) : Host.Outcome State Fault Refusal :=
  finish ((s.setReg8 .b (s.regs.b - 1#8)).jumpIf (s.regs.b - 1#8 != 0#8) (s.branchTarget e))

/-- CALL nn (R350). -/
def execCallNn (nn : Word) (s : State) : Host.Outcome State Fault Refusal := s.call nn

/-- CALL cc,nn (R351). -/
def execCallCcNn (cc : Cond) (nn : Word) (s : State) : Host.Outcome State Fault Refusal :=
  if s.regs.f.holds cc then s.call nn else finish s

/-- RET (R355). -/
def execRet (s : State) : Host.Outcome State Fault Refusal := s.ret

/-- RET cc (R356). -/
def execRetCc (cc : Cond) (s : State) : Host.Outcome State Fault Refusal :=
  if s.regs.f.holds cc then s.ret else finish s

/-- RETI (R357). IFF1 and IFF2 stay; the chips see the end of service. -/
def execReti (s : State) : Host.Outcome State Fault Refusal := s.endOfService.ret

/-- RETN (R358). IFF1 takes IFF2. -/
def execRetn (s : State) : Host.Outcome State Fault Refusal := s.restoreEnable.ret

/-- RST p (R362). -/
def execRstP (p : Byte) (s : State) : Host.Outcome State Fault Refusal := s.call (word 0#8 p)

end Sys2Proof.Machine
end

