-- ==== Sys2Proof/Machine/Load16.lean ====
section
/-! DEFINITION. The meanings of the 16-bit loads, PUSH and POP (R160 to R183). All bytes are fetched before, so `s.pc` is the address after
the instruction (R92). -/

namespace Sys2Proof.Machine

/-- LD dd,nn (R160). -/
def execLdDdNn (dd : PairSp) (nn : Word) (s : State) : Host.Outcome State Fault Refusal :=
  finish (s.setPairSp dd nn)

/-- LD IX,nn (R161). -/
def execLdIxNn (nn : Word) (s : State) : Host.Outcome State Fault Refusal := finish { s with ix := nn }

/-- LD IY,nn (R162). -/
def execLdIyNn (nn : Word) (s : State) : Host.Outcome State Fault Refusal := finish { s with iy := nn }

/-- LD HL,(nn) (R163). -/
def execLdHlMem (nn : Word) (s : State) : Host.Outcome State Fault Refusal := s.readWordThen nn fun w t => finish (t.setHL w)

/-- LD dd,(nn) (R164). -/
def execLdDdMem (dd : PairSp) (nn : Word) (s : State) : Host.Outcome State Fault Refusal :=
  s.readWordThen nn fun w t => finish (t.setPairSp dd w)

/-- LD IX,(nn) (R165). -/
def execLdIxMem (nn : Word) (s : State) : Host.Outcome State Fault Refusal :=
  s.readWordThen nn fun w t => finish { t with ix := w }

/-- LD IY,(nn) (R166). -/
def execLdIyMem (nn : Word) (s : State) : Host.Outcome State Fault Refusal :=
  s.readWordThen nn fun w t => finish { t with iy := w }

/-- LD (nn),HL (R167). -/
def execLdMemHl (nn : Word) (s : State) : Host.Outcome State Fault Refusal := s.writeWordThen nn s.hl finish

/-- LD (nn),dd (R168). -/
def execLdMemDd (nn : Word) (dd : PairSp) (s : State) : Host.Outcome State Fault Refusal :=
  s.writeWordThen nn (s.pairSp dd) finish

/-- LD (nn),IX (R169). -/
def execLdMemIx (nn : Word) (s : State) : Host.Outcome State Fault Refusal := s.writeWordThen nn s.ix finish

/-- LD (nn),IY (R170). -/
def execLdMemIy (nn : Word) (s : State) : Host.Outcome State Fault Refusal := s.writeWordThen nn s.iy finish

/-- LD SP,HL (R172). -/
def execLdSpHl (s : State) : Host.Outcome State Fault Refusal := finish { s with sp := s.hl }

/-- LD SP,IX (R173). -/
def execLdSpIx (s : State) : Host.Outcome State Fault Refusal := finish { s with sp := s.ix }

/-- LD SP,IY (R174). -/
def execLdSpIy (s : State) : Host.Outcome State Fault Refusal := finish { s with sp := s.iy }

/-- PUSH qq (R178). -/
def execPushQq (qq : PairAf) (s : State) : Host.Outcome State Fault Refusal := s.pushThen (s.pairAf qq) finish

/-- PUSH IX (R179). -/
def execPushIx (s : State) : Host.Outcome State Fault Refusal := s.pushThen s.ix finish

/-- PUSH IY (R180). -/
def execPushIy (s : State) : Host.Outcome State Fault Refusal := s.pushThen s.iy finish

/-- POP qq (R181). POP AF loads all eight bits of F. -/
def execPopQq (qq : PairAf) (s : State) : Host.Outcome State Fault Refusal :=
  s.popThen fun w t => finish (t.setPairAf qq w)

/-- POP IX (R182). -/
def execPopIx (s : State) : Host.Outcome State Fault Refusal := s.popThen fun w t => finish { t with ix := w }

/-- POP IY (R183). -/
def execPopIy (s : State) : Host.Outcome State Fault Refusal := s.popThen fun w t => finish { t with iy := w }

end Sys2Proof.Machine
end

