-- ==== Sys2Proof/Machine/Load8.lean ====
section
/-! DEFINITION. The meanings of the 8-bit loads (R130 to R150). All bytes are fetched before, so `s.pc` is the address after
the instruction (R92). -/

namespace Sys2Proof.Machine

/-- LD r,r' (R130). -/
def execLdRR (dst : Reg8) (src : Reg8) (s : State) : Host.Outcome State Fault Refusal :=
  finish (s.setReg8 dst (s.reg8 src))

/-- LD r,n (R131). -/
def execLdRN (r : Reg8) (n : Byte) (s : State) : Host.Outcome State Fault Refusal := finish (s.setReg8 r n)

/-- LD r,(HL) (R132). -/
def execLdRHl (r : Reg8) (s : State) : Host.Outcome State Fault Refusal := s.readThen s.hl fun v t => finish (t.setReg8 r v)

/-- LD r,(IX+d) (R133). -/
def execLdRIx (r : Reg8) (d : Byte) (s : State) : Host.Outcome State Fault Refusal :=
  s.readThen (s.ixd d) fun v t => finish (t.setReg8 r v)

/-- LD r,(IY+d) (R139). -/
def execLdRIy (r : Reg8) (d : Byte) (s : State) : Host.Outcome State Fault Refusal :=
  s.readThen (s.iyd d) fun v t => finish (t.setReg8 r v)

/-- LD (HL),r (R134). -/
def execLdHlR (r : Reg8) (s : State) : Host.Outcome State Fault Refusal := s.writeThen s.hl (s.reg8 r) finish

/-- LD (IX+d),r (R135). -/
def execLdIxR (d : Byte) (r : Reg8) (s : State) : Host.Outcome State Fault Refusal :=
  s.writeThen (s.ixd d) (s.reg8 r) finish

/-- LD (IY+d),r (R140). -/
def execLdIyR (d : Byte) (r : Reg8) (s : State) : Host.Outcome State Fault Refusal :=
  s.writeThen (s.iyd d) (s.reg8 r) finish

/-- LD (HL),n (R136). -/
def execLdHlN (n : Byte) (s : State) : Host.Outcome State Fault Refusal := s.writeThen s.hl n finish

/-- LD (IX+d),n (R137). -/
def execLdIxN (d : Byte) (n : Byte) (s : State) : Host.Outcome State Fault Refusal :=
  s.writeThen (s.ixd d) n finish

/-- LD (IY+d),n (R138). -/
def execLdIyN (d : Byte) (n : Byte) (s : State) : Host.Outcome State Fault Refusal :=
  s.writeThen (s.iyd d) n finish

/-- LD A,(BC) (R141). -/
def execLdABc (s : State) : Host.Outcome State Fault Refusal := s.readThen s.bc fun v t => finish (t.setReg8 .a v)

/-- LD A,(DE) (R142). -/
def execLdADe (s : State) : Host.Outcome State Fault Refusal := s.readThen s.de fun v t => finish (t.setReg8 .a v)

/-- LD A,(nn) (R143). -/
def execLdAMem (nn : Word) (s : State) : Host.Outcome State Fault Refusal := s.readThen nn fun v t => finish (t.setReg8 .a v)

/-- LD (BC),A (R144). -/
def execLdBcA (s : State) : Host.Outcome State Fault Refusal := s.writeThen s.bc s.regs.a finish

/-- LD (DE),A (R145). -/
def execLdDeA (s : State) : Host.Outcome State Fault Refusal := s.writeThen s.de s.regs.a finish

/-- LD (nn),A (R146). -/
def execLdMemA (nn : Word) (s : State) : Host.Outcome State Fault Refusal := s.writeThen nn s.regs.a finish

/-- LD A,I (R147). P/V takes IFF2. -/
def execLdAI (s : State) : Host.Outcome State Fault Refusal :=
  finish (s.setAF (s.i, loadSpecialFlags s.unspec s.regs.f s.i s.iff2))

/-- LD A,R (R148). R already counts the two fetches of this instruction. -/
def execLdAR (s : State) : Host.Outcome State Fault Refusal :=
  finish (s.setAF (s.r, loadSpecialFlags s.unspec s.regs.f s.r s.iff2))

/-- LD I,A (R149). -/
def execLdIA (s : State) : Host.Outcome State Fault Refusal := finish { s with i := s.regs.a }

/-- LD R,A (R150). All eight bits, after this instruction's own fetches have counted. -/
def execLdRA (s : State) : Host.Outcome State Fault Refusal := finish { s with r := s.regs.a }

end Sys2Proof.Machine
end

