-- ==== Sys2Proof/Machine/Misc8.lean ====
section
/-! DEFINITION. The meanings of accumulator and flag instructions (R247 to R251). All bytes are fetched before, so `s.pc` is the address after
the instruction (R92). -/

namespace Sys2Proof.Machine

/-- DAA (R247). -/
def execDaa (s : State) : Host.Outcome State Fault Refusal :=
  finish (s.setAF (daa s.unspec s.regs.f s.regs.a))

/-- CPL (R248). -/
def execCpl (s : State) : Host.Outcome State Fault Refusal :=
  finish (s.setAF (~~~s.regs.a, cplFlags s.unspec s.regs.f))

/-- NEG (R249). -/
def execNeg (s : State) : Host.Outcome State Fault Refusal :=
  finish (s.setAF (0#8 - s.regs.a, negFlags s.unspec s.regs.a))

/-- CCF (R250). -/
def execCcf (s : State) : Host.Outcome State Fault Refusal := finish (s.setF (ccfFlags s.unspec s.regs.f))

/-- SCF (R251). -/
def execScf (s : State) : Host.Outcome State Fault Refusal := finish (s.setF (scfFlags s.unspec s.regs.f))

end Sys2Proof.Machine
end

