-- ==== Sys2Proof/Machine/Rotate.lean ====
section
/-! DEFINITION. The meanings of rotates and shifts (R280 to R295). All bytes are fetched before, so `s.pc` is the address after
the instruction (R92). -/

namespace Sys2Proof.Machine

/-- The new A and (HL) of RLD (R291). -/
def rldPair (a t : Byte) : Byte × Byte :=
  ((a &&& 0xF0#8) ||| (t >>> 4), (t <<< 4) ||| (a &&& 0x0F#8))

/-- The new A and (HL) of RRD (R292). -/
def rrdPair (a t : Byte) : Byte × Byte :=
  ((a &&& 0xF0#8) ||| (t &&& 0x0F#8), (a <<< 4) ||| (t >>> 4))

/-- RLD and RRD (R291, R292): (HL) is read, `pair` of A and that byte gives the new A and the byte written back, after an internal cycle
(R595); the flags are those of A. -/
def State.rotateDigits (s : State) (pair : Byte → Byte → Byte × Byte) : Result :=
  s.readThen s.hl fun v t =>
    let p := pair s.regs.a v
    t.internal 1 fun u => u.writeThen s.hl p.2 fun x => finish (x.setAF (p.1, parityFlags s.unspec s.regs.f p.1))

/-- RLCA (R280). -/
def execRlca (s : State) : Host.Outcome State Fault Refusal :=
  finish (s.setAF (rotAcc .rlc s.unspec s.regs.f s.regs.a))

/-- RRCA (R281). -/
def execRrca (s : State) : Host.Outcome State Fault Refusal :=
  finish (s.setAF (rotAcc .rrc s.unspec s.regs.f s.regs.a))

/-- RLA (R282). -/
def execRla (s : State) : Host.Outcome State Fault Refusal :=
  finish (s.setAF (rotAcc .rl s.unspec s.regs.f s.regs.a))

/-- RRA (R283). -/
def execRra (s : State) : Host.Outcome State Fault Refusal :=
  finish (s.setAF (rotAcc .rr s.unspec s.regs.f s.regs.a))

/-- RLC r (R284). -/
def execRlcR (r : Reg8) (s : State) : Host.Outcome State Fault Refusal :=
  finish (s.modifyReg r (rotByte .rlc))

/-- RLC (HL) (R284). -/
def execRlcHl (s : State) : Host.Outcome State Fault Refusal := s.modify s.hl (rotByte .rlc)

/-- RLC (IX+d) (R284). -/
def execRlcIx (d : Byte) (s : State) : Host.Outcome State Fault Refusal :=
  s.modify (s.ixd d) (rotByte .rlc)

/-- RLC (IY+d) (R284). -/
def execRlcIy (d : Byte) (s : State) : Host.Outcome State Fault Refusal :=
  s.modify (s.iyd d) (rotByte .rlc)

/-- RRC r (R285). -/
def execRrcR (r : Reg8) (s : State) : Host.Outcome State Fault Refusal :=
  finish (s.modifyReg r (rotByte .rrc))

/-- RRC (HL) (R285). -/
def execRrcHl (s : State) : Host.Outcome State Fault Refusal := s.modify s.hl (rotByte .rrc)

/-- RRC (IX+d) (R285). -/
def execRrcIx (d : Byte) (s : State) : Host.Outcome State Fault Refusal :=
  s.modify (s.ixd d) (rotByte .rrc)

/-- RRC (IY+d) (R285). -/
def execRrcIy (d : Byte) (s : State) : Host.Outcome State Fault Refusal :=
  s.modify (s.iyd d) (rotByte .rrc)

/-- RL r (R286). -/
def execRlR (r : Reg8) (s : State) : Host.Outcome State Fault Refusal := finish (s.modifyReg r (rotByte .rl))

/-- RL (HL) (R286). -/
def execRlHl (s : State) : Host.Outcome State Fault Refusal := s.modify s.hl (rotByte .rl)

/-- RL (IX+d) (R286). -/
def execRlIx (d : Byte) (s : State) : Host.Outcome State Fault Refusal :=
  s.modify (s.ixd d) (rotByte .rl)

/-- RL (IY+d) (R286). -/
def execRlIy (d : Byte) (s : State) : Host.Outcome State Fault Refusal :=
  s.modify (s.iyd d) (rotByte .rl)

/-- RR r (R287). -/
def execRrR (r : Reg8) (s : State) : Host.Outcome State Fault Refusal := finish (s.modifyReg r (rotByte .rr))

/-- RR (HL) (R287). -/
def execRrHl (s : State) : Host.Outcome State Fault Refusal := s.modify s.hl (rotByte .rr)

/-- RR (IX+d) (R287). -/
def execRrIx (d : Byte) (s : State) : Host.Outcome State Fault Refusal :=
  s.modify (s.ixd d) (rotByte .rr)

/-- RR (IY+d) (R287). -/
def execRrIy (d : Byte) (s : State) : Host.Outcome State Fault Refusal :=
  s.modify (s.iyd d) (rotByte .rr)

/-- SLA r (R288). -/
def execSlaR (r : Reg8) (s : State) : Host.Outcome State Fault Refusal :=
  finish (s.modifyReg r (rotByte .sla))

/-- SLA (HL) (R288). -/
def execSlaHl (s : State) : Host.Outcome State Fault Refusal := s.modify s.hl (rotByte .sla)

/-- SLA (IX+d) (R288). -/
def execSlaIx (d : Byte) (s : State) : Host.Outcome State Fault Refusal :=
  s.modify (s.ixd d) (rotByte .sla)

/-- SLA (IY+d) (R288). -/
def execSlaIy (d : Byte) (s : State) : Host.Outcome State Fault Refusal :=
  s.modify (s.iyd d) (rotByte .sla)

/-- SRA r (R289). -/
def execSraR (r : Reg8) (s : State) : Host.Outcome State Fault Refusal :=
  finish (s.modifyReg r (rotByte .sra))

/-- SRA (HL) (R289). -/
def execSraHl (s : State) : Host.Outcome State Fault Refusal := s.modify s.hl (rotByte .sra)

/-- SRA (IX+d) (R289). -/
def execSraIx (d : Byte) (s : State) : Host.Outcome State Fault Refusal :=
  s.modify (s.ixd d) (rotByte .sra)

/-- SRA (IY+d) (R289). -/
def execSraIy (d : Byte) (s : State) : Host.Outcome State Fault Refusal :=
  s.modify (s.iyd d) (rotByte .sra)

/-- SRL r (R290). -/
def execSrlR (r : Reg8) (s : State) : Host.Outcome State Fault Refusal :=
  finish (s.modifyReg r (rotByte .srl))

/-- SRL (HL) (R290). -/
def execSrlHl (s : State) : Host.Outcome State Fault Refusal := s.modify s.hl (rotByte .srl)

/-- SRL (IX+d) (R290). -/
def execSrlIx (d : Byte) (s : State) : Host.Outcome State Fault Refusal :=
  s.modify (s.ixd d) (rotByte .srl)

/-- SRL (IY+d) (R290). -/
def execSrlIy (d : Byte) (s : State) : Host.Outcome State Fault Refusal :=
  s.modify (s.iyd d) (rotByte .srl)

/-- RLD (R291). -/
def execRld (s : State) : Host.Outcome State Fault Refusal :=
  s.rotateDigits rldPair

/-- RRD (R292). -/
def execRrd (s : State) : Host.Outcome State Fault Refusal :=
  s.rotateDigits rrdPair

end Sys2Proof.Machine
end

