-- ==== Sys2Proof/Machine/Dispatch.lean ====
section
/-! DEFINITION. What each instruction does: one arm for each constructor of `Instr`, in the order of the opcode table. -/

namespace Sys2Proof.Machine

def exec (i : Instr) (s : State) : Host.Outcome State Fault Refusal :=
  match i with
  | .ldRR dst src => Sys2Proof.Machine.execLdRR dst src s
  | .ldRN r n => Sys2Proof.Machine.execLdRN r n s
  | .ldRHl r => Sys2Proof.Machine.execLdRHl r s
  | .ldRIx r d => Sys2Proof.Machine.execLdRIx r d s
  | .ldRIy r d => Sys2Proof.Machine.execLdRIy r d s
  | .ldHlR r => Sys2Proof.Machine.execLdHlR r s
  | .ldIxR d r => Sys2Proof.Machine.execLdIxR d r s
  | .ldIyR d r => Sys2Proof.Machine.execLdIyR d r s
  | .ldHlN n => Sys2Proof.Machine.execLdHlN n s
  | .ldIxN d n => Sys2Proof.Machine.execLdIxN d n s
  | .ldIyN d n => Sys2Proof.Machine.execLdIyN d n s
  | .ldABc => Sys2Proof.Machine.execLdABc s
  | .ldADe => Sys2Proof.Machine.execLdADe s
  | .ldAMem nn => Sys2Proof.Machine.execLdAMem nn s
  | .ldBcA => Sys2Proof.Machine.execLdBcA s
  | .ldDeA => Sys2Proof.Machine.execLdDeA s
  | .ldMemA nn => Sys2Proof.Machine.execLdMemA nn s
  | .ldAI => Sys2Proof.Machine.execLdAI s
  | .ldAR => Sys2Proof.Machine.execLdAR s
  | .ldIA => Sys2Proof.Machine.execLdIA s
  | .ldRA => Sys2Proof.Machine.execLdRA s
  | .ldDdNn dd nn => Sys2Proof.Machine.execLdDdNn dd nn s
  | .ldIxNn nn => Sys2Proof.Machine.execLdIxNn nn s
  | .ldIyNn nn => Sys2Proof.Machine.execLdIyNn nn s
  | .ldHlMem nn => Sys2Proof.Machine.execLdHlMem nn s
  | .ldDdMem dd nn => Sys2Proof.Machine.execLdDdMem dd nn s
  | .ldIxMem nn => Sys2Proof.Machine.execLdIxMem nn s
  | .ldIyMem nn => Sys2Proof.Machine.execLdIyMem nn s
  | .ldMemHl nn => Sys2Proof.Machine.execLdMemHl nn s
  | .ldMemDd nn dd => Sys2Proof.Machine.execLdMemDd nn dd s
  | .ldMemIx nn => Sys2Proof.Machine.execLdMemIx nn s
  | .ldMemIy nn => Sys2Proof.Machine.execLdMemIy nn s
  | .ldSpHl => Sys2Proof.Machine.execLdSpHl s
  | .ldSpIx => Sys2Proof.Machine.execLdSpIx s
  | .ldSpIy => Sys2Proof.Machine.execLdSpIy s
  | .pushQq qq => Sys2Proof.Machine.execPushQq qq s
  | .pushIx => Sys2Proof.Machine.execPushIx s
  | .pushIy => Sys2Proof.Machine.execPushIy s
  | .popQq qq => Sys2Proof.Machine.execPopQq qq s
  | .popIx => Sys2Proof.Machine.execPopIx s
  | .popIy => Sys2Proof.Machine.execPopIy s
  | .exDeHl => Sys2Proof.Machine.execExDeHl s
  | .exAfAf => Sys2Proof.Machine.execExAfAf s
  | .exx => Sys2Proof.Machine.execExx s
  | .exSpHl => Sys2Proof.Machine.execExSpHl s
  | .exSpIx => Sys2Proof.Machine.execExSpIx s
  | .exSpIy => Sys2Proof.Machine.execExSpIy s
  | .ldi => Sys2Proof.Machine.execLdi s
  | .ldd => Sys2Proof.Machine.execLdd s
  | .ldir => Sys2Proof.Machine.execLdir s
  | .lddr => Sys2Proof.Machine.execLddr s
  | .cpi => Sys2Proof.Machine.execCpi s
  | .cpd => Sys2Proof.Machine.execCpd s
  | .cpir => Sys2Proof.Machine.execCpir s
  | .cpdr => Sys2Proof.Machine.execCpdr s
  | .addAR r => Sys2Proof.Machine.execAddAR r s
  | .addAN n => Sys2Proof.Machine.execAddAN n s
  | .addAHl => Sys2Proof.Machine.execAddAHl s
  | .addAIx d => Sys2Proof.Machine.execAddAIx d s
  | .addAIy d => Sys2Proof.Machine.execAddAIy d s
  | .adcAR r => Sys2Proof.Machine.execAdcAR r s
  | .adcAN n => Sys2Proof.Machine.execAdcAN n s
  | .adcAHl => Sys2Proof.Machine.execAdcAHl s
  | .adcAIx d => Sys2Proof.Machine.execAdcAIx d s
  | .adcAIy d => Sys2Proof.Machine.execAdcAIy d s
  | .subR r => Sys2Proof.Machine.execSubR r s
  | .subN n => Sys2Proof.Machine.execSubN n s
  | .subHl => Sys2Proof.Machine.execSubHl s
  | .subIx d => Sys2Proof.Machine.execSubIx d s
  | .subIy d => Sys2Proof.Machine.execSubIy d s
  | .sbcAR r => Sys2Proof.Machine.execSbcAR r s
  | .sbcAN n => Sys2Proof.Machine.execSbcAN n s
  | .sbcAHl => Sys2Proof.Machine.execSbcAHl s
  | .sbcAIx d => Sys2Proof.Machine.execSbcAIx d s
  | .sbcAIy d => Sys2Proof.Machine.execSbcAIy d s
  | .andR r => Sys2Proof.Machine.execAndR r s
  | .andN n => Sys2Proof.Machine.execAndN n s
  | .andHl => Sys2Proof.Machine.execAndHl s
  | .andIx d => Sys2Proof.Machine.execAndIx d s
  | .andIy d => Sys2Proof.Machine.execAndIy d s
  | .xorR r => Sys2Proof.Machine.execXorR r s
  | .xorN n => Sys2Proof.Machine.execXorN n s
  | .xorHl => Sys2Proof.Machine.execXorHl s
  | .xorIx d => Sys2Proof.Machine.execXorIx d s
  | .xorIy d => Sys2Proof.Machine.execXorIy d s
  | .orR r => Sys2Proof.Machine.execOrR r s
  | .orN n => Sys2Proof.Machine.execOrN n s
  | .orHl => Sys2Proof.Machine.execOrHl s
  | .orIx d => Sys2Proof.Machine.execOrIx d s
  | .orIy d => Sys2Proof.Machine.execOrIy d s
  | .cpR r => Sys2Proof.Machine.execCpR r s
  | .cpN n => Sys2Proof.Machine.execCpN n s
  | .cpHl => Sys2Proof.Machine.execCpHl s
  | .cpIx d => Sys2Proof.Machine.execCpIx d s
  | .cpIy d => Sys2Proof.Machine.execCpIy d s
  | .incR r => Sys2Proof.Machine.execIncR r s
  | .incHl => Sys2Proof.Machine.execIncHl s
  | .incIxd d => Sys2Proof.Machine.execIncIxd d s
  | .incIyd d => Sys2Proof.Machine.execIncIyd d s
  | .decR r => Sys2Proof.Machine.execDecR r s
  | .decHl => Sys2Proof.Machine.execDecHl s
  | .decIxd d => Sys2Proof.Machine.execDecIxd d s
  | .decIyd d => Sys2Proof.Machine.execDecIyd d s
  | .daa => Sys2Proof.Machine.execDaa s
  | .cpl => Sys2Proof.Machine.execCpl s
  | .neg => Sys2Proof.Machine.execNeg s
  | .ccf => Sys2Proof.Machine.execCcf s
  | .scf => Sys2Proof.Machine.execScf s
  | .addHlSs ss => Sys2Proof.Machine.execAddHlSs ss s
  | .addIxPp pp => Sys2Proof.Machine.execAddIxPp pp s
  | .addIyRr rr => Sys2Proof.Machine.execAddIyRr rr s
  | .adcHlSs ss => Sys2Proof.Machine.execAdcHlSs ss s
  | .sbcHlSs ss => Sys2Proof.Machine.execSbcHlSs ss s
  | .incSs ss => Sys2Proof.Machine.execIncSs ss s
  | .incIx => Sys2Proof.Machine.execIncIx s
  | .incIy => Sys2Proof.Machine.execIncIy s
  | .decSs ss => Sys2Proof.Machine.execDecSs ss s
  | .decIx => Sys2Proof.Machine.execDecIx s
  | .decIy => Sys2Proof.Machine.execDecIy s
  | .rlca => Sys2Proof.Machine.execRlca s
  | .rrca => Sys2Proof.Machine.execRrca s
  | .rla => Sys2Proof.Machine.execRla s
  | .rra => Sys2Proof.Machine.execRra s
  | .rlcR r => Sys2Proof.Machine.execRlcR r s
  | .rlcHl => Sys2Proof.Machine.execRlcHl s
  | .rlcIx d => Sys2Proof.Machine.execRlcIx d s
  | .rlcIy d => Sys2Proof.Machine.execRlcIy d s
  | .rrcR r => Sys2Proof.Machine.execRrcR r s
  | .rrcHl => Sys2Proof.Machine.execRrcHl s
  | .rrcIx d => Sys2Proof.Machine.execRrcIx d s
  | .rrcIy d => Sys2Proof.Machine.execRrcIy d s
  | .rlR r => Sys2Proof.Machine.execRlR r s
  | .rlHl => Sys2Proof.Machine.execRlHl s
  | .rlIx d => Sys2Proof.Machine.execRlIx d s
  | .rlIy d => Sys2Proof.Machine.execRlIy d s
  | .rrR r => Sys2Proof.Machine.execRrR r s
  | .rrHl => Sys2Proof.Machine.execRrHl s
  | .rrIx d => Sys2Proof.Machine.execRrIx d s
  | .rrIy d => Sys2Proof.Machine.execRrIy d s
  | .slaR r => Sys2Proof.Machine.execSlaR r s
  | .slaHl => Sys2Proof.Machine.execSlaHl s
  | .slaIx d => Sys2Proof.Machine.execSlaIx d s
  | .slaIy d => Sys2Proof.Machine.execSlaIy d s
  | .sraR r => Sys2Proof.Machine.execSraR r s
  | .sraHl => Sys2Proof.Machine.execSraHl s
  | .sraIx d => Sys2Proof.Machine.execSraIx d s
  | .sraIy d => Sys2Proof.Machine.execSraIy d s
  | .srlR r => Sys2Proof.Machine.execSrlR r s
  | .srlHl => Sys2Proof.Machine.execSrlHl s
  | .srlIx d => Sys2Proof.Machine.execSrlIx d s
  | .srlIy d => Sys2Proof.Machine.execSrlIy d s
  | .rld => Sys2Proof.Machine.execRld s
  | .rrd => Sys2Proof.Machine.execRrd s
  | .bitR b r => Sys2Proof.Machine.execBitR b r s
  | .bitHl b => Sys2Proof.Machine.execBitHl b s
  | .bitIx b d => Sys2Proof.Machine.execBitIx b d s
  | .bitIy b d => Sys2Proof.Machine.execBitIy b d s
  | .setR b r => Sys2Proof.Machine.execSetR b r s
  | .setHl b => Sys2Proof.Machine.execSetHl b s
  | .setIx b d => Sys2Proof.Machine.execSetIx b d s
  | .setIy b d => Sys2Proof.Machine.execSetIy b d s
  | .resR b r => Sys2Proof.Machine.execResR b r s
  | .resHl b => Sys2Proof.Machine.execResHl b s
  | .resIx b d => Sys2Proof.Machine.execResIx b d s
  | .resIy b d => Sys2Proof.Machine.execResIy b d s
  | .jpNn nn => Sys2Proof.Machine.execJpNn nn s
  | .jpCcNn cc nn => Sys2Proof.Machine.execJpCcNn cc nn s
  | .jpHl => Sys2Proof.Machine.execJpHl s
  | .jpIx => Sys2Proof.Machine.execJpIx s
  | .jpIy => Sys2Proof.Machine.execJpIy s
  | .jrE e => Sys2Proof.Machine.execJrE e s
  | .jrNz e => Sys2Proof.Machine.execJrNz e s
  | .jrZ e => Sys2Proof.Machine.execJrZ e s
  | .jrNc e => Sys2Proof.Machine.execJrNc e s
  | .jrC e => Sys2Proof.Machine.execJrC e s
  | .djnz e => Sys2Proof.Machine.execDjnz e s
  | .callNn nn => Sys2Proof.Machine.execCallNn nn s
  | .callCcNn cc nn => Sys2Proof.Machine.execCallCcNn cc nn s
  | .ret => Sys2Proof.Machine.execRet s
  | .retCc cc => Sys2Proof.Machine.execRetCc cc s
  | .reti => Sys2Proof.Machine.execReti s
  | .retn => Sys2Proof.Machine.execRetn s
  | .rstP p => Sys2Proof.Machine.execRstP p s
  | .inAN n => Sys2Proof.Machine.execInAN n s
  | .inRC r => Sys2Proof.Machine.execInRC r s
  | .outNA n => Sys2Proof.Machine.execOutNA n s
  | .outCR r => Sys2Proof.Machine.execOutCR r s
  | .ini => Sys2Proof.Machine.execIni s
  | .ind => Sys2Proof.Machine.execInd s
  | .inir => Sys2Proof.Machine.execInir s
  | .indr => Sys2Proof.Machine.execIndr s
  | .outi => Sys2Proof.Machine.execOuti s
  | .outd => Sys2Proof.Machine.execOutd s
  | .otir => Sys2Proof.Machine.execOtir s
  | .otdr => Sys2Proof.Machine.execOtdr s
  | .nop => Sys2Proof.Machine.execNop s
  | .halt => Sys2Proof.Machine.execHalt s
  | .di => Sys2Proof.Machine.execDi s
  | .ei => Sys2Proof.Machine.execEi s
  | .im0 => Sys2Proof.Machine.execIm0 s
  | .im1 => Sys2Proof.Machine.execIm1 s
  | .im2 => Sys2Proof.Machine.execIm2 s

end Sys2Proof.Machine
end

