-- ==== Sys2Proof/Machine/Timing.lean ====
section
/-! DEFINITION. The book's machine cycles and clock counts (R594 to R596). The clocks are timing only: the model is untimed and no step
reads them (R597); a host that drives a CTC may credit each step with them. The internal cycles have a part in the step, because
the bus may be released after each of them (R78, R594). -/

namespace Sys2Proof.Machine

/-- A machine cycle with its clocks, as the table of R595 names them: opcode fetch, operand read from the instruction stream, internal
operation, memory (or stack) read and write, port read and write. -/
inductive MachineCycle where
  | fetch (clocks : Nat)
  | operand (clocks : Nat)
  | internal (clocks : Nat)
  | memRead (clocks : Nat)
  | memWrite (clocks : Nat)
  | portRead (clocks : Nat)
  | portWrite (clocks : Nat)
deriving DecidableEq, Repr

/-- The clocks of a machine cycle. -/
def MachineCycle.clocks : MachineCycle → Nat
  | .fetch n | .operand n | .internal n | .memRead n | .memWrite n | .portRead n | .portWrite n => n

/-- The cycle comes before the first access to data: the fetch of the instruction, and internal cycles after it. -/
def MachineCycle.early : MachineCycle → Bool
  | .fetch _ | .operand _ | .internal _ => true
  | .memRead _ | .memWrite _ | .portRead _ | .portWrite _ => false

/-- The machine cycles of an instruction (R595). `more` says that a conditional form takes its longer way: a jump, call or return that is
taken, a block instruction that repeats. The further cycle of the searches is internal, since they write nothing (R210). The
table has no row for LD (IX+d),n and LD (IY+d),n. -/
def cyclesOf (more : Bool) : Instr → Option (List MachineCycle)
  | .ldRR _ _ => some [.fetch 4]
  | .ldRN _ _ => some [.fetch 4, .operand 3]
  | .ldRHl _ => some [.fetch 4, .memRead 3]
  | .ldRIx _ _ => some [.fetch 4, .fetch 4, .operand 3, .internal 5, .memRead 3]
  | .ldRIy _ _ => some [.fetch 4, .fetch 4, .operand 3, .internal 5, .memRead 3]
  | .ldHlR _ => some [.fetch 4, .memWrite 3]
  | .ldIxR _ _ => some [.fetch 4, .fetch 4, .operand 3, .internal 5, .memWrite 3]
  | .ldIyR _ _ => some [.fetch 4, .fetch 4, .operand 3, .internal 5, .memWrite 3]
  | .ldHlN _ => some [.fetch 4, .operand 3, .memWrite 3]
  | .ldIxN _ _ => none
  | .ldIyN _ _ => none
  | .ldABc => some [.fetch 4, .memRead 3]
  | .ldADe => some [.fetch 4, .memRead 3]
  | .ldAMem _ => some [.fetch 4, .operand 3, .operand 3, .memRead 3]
  | .ldBcA => some [.fetch 4, .memWrite 3]
  | .ldDeA => some [.fetch 4, .memWrite 3]
  | .ldMemA _ => some [.fetch 4, .operand 3, .operand 3, .memWrite 3]
  | .ldAI => some [.fetch 4, .fetch 5]
  | .ldAR => some [.fetch 4, .fetch 5]
  | .ldIA => some [.fetch 4, .fetch 5]
  | .ldRA => some [.fetch 4, .fetch 5]
  | .ldDdNn _ _ => some [.fetch 4, .operand 3, .operand 3]
  | .ldIxNn _ => some [.fetch 4, .fetch 4, .operand 3, .operand 3]
  | .ldIyNn _ => some [.fetch 4, .fetch 4, .operand 3, .operand 3]
  | .ldHlMem _ => some [.fetch 4, .operand 3, .operand 3, .memRead 3, .memRead 3]
  | .ldDdMem _ _ => some [.fetch 4, .fetch 4, .operand 3, .operand 3, .memRead 3, .memRead 3]
  | .ldIxMem _ => some [.fetch 4, .fetch 4, .operand 3, .operand 3, .memRead 3, .memRead 3]
  | .ldIyMem _ => some [.fetch 4, .fetch 4, .operand 3, .operand 3, .memRead 3, .memRead 3]
  | .ldMemHl _ => some [.fetch 4, .operand 3, .operand 3, .memWrite 3, .memWrite 3]
  | .ldMemDd _ _ => some [.fetch 4, .fetch 4, .operand 3, .operand 3, .memWrite 3, .memWrite 3]
  | .ldMemIx _ => some [.fetch 4, .fetch 4, .operand 3, .operand 3, .memWrite 3, .memWrite 3]
  | .ldMemIy _ => some [.fetch 4, .fetch 4, .operand 3, .operand 3, .memWrite 3, .memWrite 3]
  | .ldSpHl => some [.fetch 6]
  | .ldSpIx => some [.fetch 4, .fetch 6]
  | .ldSpIy => some [.fetch 4, .fetch 6]
  | .pushQq _ => some [.fetch 5, .memWrite 3, .memWrite 3]
  | .pushIx => some [.fetch 4, .fetch 5, .memWrite 3, .memWrite 3]
  | .pushIy => some [.fetch 4, .fetch 5, .memWrite 3, .memWrite 3]
  | .popQq _ => some [.fetch 4, .memRead 3, .memRead 3]
  | .popIx => some [.fetch 4, .fetch 4, .memRead 3, .memRead 3]
  | .popIy => some [.fetch 4, .fetch 4, .memRead 3, .memRead 3]
  | .exDeHl => some [.fetch 4]
  | .exAfAf => some [.fetch 4]
  | .exx => some [.fetch 4]
  | .exSpHl => some [.fetch 4, .memRead 3, .memRead 4, .memWrite 3, .memWrite 5]
  | .exSpIx => some [.fetch 4, .fetch 4, .memRead 3, .memRead 4, .memWrite 3, .memWrite 5]
  | .exSpIy => some [.fetch 4, .fetch 4, .memRead 3, .memRead 4, .memWrite 3, .memWrite 5]
  | .ldi => some [.fetch 4, .fetch 4, .memRead 3, .memWrite 5]
  | .ldd => some [.fetch 4, .fetch 4, .memRead 3, .memWrite 5]
  | .ldir =>
    some (if more then [.fetch 4, .fetch 4, .memRead 3, .memWrite 5, .internal 5] else [.fetch 4, .fetch 4, .memRead 3, .memWrite 5])
  | .lddr =>
    some (if more then [.fetch 4, .fetch 4, .memRead 3, .memWrite 5, .internal 5] else [.fetch 4, .fetch 4, .memRead 3, .memWrite 5])
  | .cpi => some [.fetch 4, .fetch 4, .memRead 3, .internal 5]
  | .cpd => some [.fetch 4, .fetch 4, .memRead 3, .internal 5]
  | .cpir =>
    some (if more then [.fetch 4, .fetch 4, .memRead 3, .internal 5, .internal 5] else [.fetch 4, .fetch 4, .memRead 3, .internal 5])
  | .cpdr =>
    some (if more then [.fetch 4, .fetch 4, .memRead 3, .internal 5, .internal 5] else [.fetch 4, .fetch 4, .memRead 3, .internal 5])
  | .addAR _ => some [.fetch 4]
  | .addAN _ => some [.fetch 4, .operand 3]
  | .addAHl => some [.fetch 4, .memRead 3]
  | .addAIx _ => some [.fetch 4, .fetch 4, .operand 3, .internal 5, .memRead 3]
  | .addAIy _ => some [.fetch 4, .fetch 4, .operand 3, .internal 5, .memRead 3]
  | .adcAR _ => some [.fetch 4]
  | .adcAN _ => some [.fetch 4, .operand 3]
  | .adcAHl => some [.fetch 4, .memRead 3]
  | .adcAIx _ => some [.fetch 4, .fetch 4, .operand 3, .internal 5, .memRead 3]
  | .adcAIy _ => some [.fetch 4, .fetch 4, .operand 3, .internal 5, .memRead 3]
  | .subR _ => some [.fetch 4]
  | .subN _ => some [.fetch 4, .operand 3]
  | .subHl => some [.fetch 4, .memRead 3]
  | .subIx _ => some [.fetch 4, .fetch 4, .operand 3, .internal 5, .memRead 3]
  | .subIy _ => some [.fetch 4, .fetch 4, .operand 3, .internal 5, .memRead 3]
  | .sbcAR _ => some [.fetch 4]
  | .sbcAN _ => some [.fetch 4, .operand 3]
  | .sbcAHl => some [.fetch 4, .memRead 3]
  | .sbcAIx _ => some [.fetch 4, .fetch 4, .operand 3, .internal 5, .memRead 3]
  | .sbcAIy _ => some [.fetch 4, .fetch 4, .operand 3, .internal 5, .memRead 3]
  | .andR _ => some [.fetch 4]
  | .andN _ => some [.fetch 4, .operand 3]
  | .andHl => some [.fetch 4, .memRead 3]
  | .andIx _ => some [.fetch 4, .fetch 4, .operand 3, .internal 5, .memRead 3]
  | .andIy _ => some [.fetch 4, .fetch 4, .operand 3, .internal 5, .memRead 3]
  | .xorR _ => some [.fetch 4]
  | .xorN _ => some [.fetch 4, .operand 3]
  | .xorHl => some [.fetch 4, .memRead 3]
  | .xorIx _ => some [.fetch 4, .fetch 4, .operand 3, .internal 5, .memRead 3]
  | .xorIy _ => some [.fetch 4, .fetch 4, .operand 3, .internal 5, .memRead 3]
  | .orR _ => some [.fetch 4]
  | .orN _ => some [.fetch 4, .operand 3]
  | .orHl => some [.fetch 4, .memRead 3]
  | .orIx _ => some [.fetch 4, .fetch 4, .operand 3, .internal 5, .memRead 3]
  | .orIy _ => some [.fetch 4, .fetch 4, .operand 3, .internal 5, .memRead 3]
  | .cpR _ => some [.fetch 4]
  | .cpN _ => some [.fetch 4, .operand 3]
  | .cpHl => some [.fetch 4, .memRead 3]
  | .cpIx _ => some [.fetch 4, .fetch 4, .operand 3, .internal 5, .memRead 3]
  | .cpIy _ => some [.fetch 4, .fetch 4, .operand 3, .internal 5, .memRead 3]
  | .incR _ => some [.fetch 4]
  | .incHl => some [.fetch 4, .memRead 4, .memWrite 3]
  | .incIxd _ => some [.fetch 4, .fetch 4, .operand 3, .internal 5, .memRead 4, .memWrite 3]
  | .incIyd _ => some [.fetch 4, .fetch 4, .operand 3, .internal 5, .memRead 4, .memWrite 3]
  | .decR _ => some [.fetch 4]
  | .decHl => some [.fetch 4, .memRead 4, .memWrite 3]
  | .decIxd _ => some [.fetch 4, .fetch 4, .operand 3, .internal 5, .memRead 4, .memWrite 3]
  | .decIyd _ => some [.fetch 4, .fetch 4, .operand 3, .internal 5, .memRead 4, .memWrite 3]
  | .daa => some [.fetch 4]
  | .cpl => some [.fetch 4]
  | .neg => some [.fetch 4, .fetch 4]
  | .ccf => some [.fetch 4]
  | .scf => some [.fetch 4]
  | .addHlSs _ => some [.fetch 4, .internal 4, .internal 3]
  | .addIxPp _ => some [.fetch 4, .fetch 4, .internal 4, .internal 3]
  | .addIyRr _ => some [.fetch 4, .fetch 4, .internal 4, .internal 3]
  | .adcHlSs _ => some [.fetch 4, .fetch 4, .internal 4, .internal 3]
  | .sbcHlSs _ => some [.fetch 4, .fetch 4, .internal 4, .internal 3]
  | .incSs _ => some [.fetch 6]
  | .incIx => some [.fetch 4, .fetch 6]
  | .incIy => some [.fetch 4, .fetch 6]
  | .decSs _ => some [.fetch 6]
  | .decIx => some [.fetch 4, .fetch 6]
  | .decIy => some [.fetch 4, .fetch 6]
  | .rlca => some [.fetch 4]
  | .rrca => some [.fetch 4]
  | .rla => some [.fetch 4]
  | .rra => some [.fetch 4]
  | .rlcR _ => some [.fetch 4, .fetch 4]
  | .rlcHl => some [.fetch 4, .fetch 4, .memRead 4, .memWrite 3]
  | .rlcIx _ => some [.fetch 4, .fetch 4, .operand 3, .internal 5, .memRead 4, .memWrite 3]
  | .rlcIy _ => some [.fetch 4, .fetch 4, .operand 3, .internal 5, .memRead 4, .memWrite 3]
  | .rrcR _ => some [.fetch 4, .fetch 4]
  | .rrcHl => some [.fetch 4, .fetch 4, .memRead 4, .memWrite 3]
  | .rrcIx _ => some [.fetch 4, .fetch 4, .operand 3, .internal 5, .memRead 4, .memWrite 3]
  | .rrcIy _ => some [.fetch 4, .fetch 4, .operand 3, .internal 5, .memRead 4, .memWrite 3]
  | .rlR _ => some [.fetch 4, .fetch 4]
  | .rlHl => some [.fetch 4, .fetch 4, .memRead 4, .memWrite 3]
  | .rlIx _ => some [.fetch 4, .fetch 4, .operand 3, .internal 5, .memRead 4, .memWrite 3]
  | .rlIy _ => some [.fetch 4, .fetch 4, .operand 3, .internal 5, .memRead 4, .memWrite 3]
  | .rrR _ => some [.fetch 4, .fetch 4]
  | .rrHl => some [.fetch 4, .fetch 4, .memRead 4, .memWrite 3]
  | .rrIx _ => some [.fetch 4, .fetch 4, .operand 3, .internal 5, .memRead 4, .memWrite 3]
  | .rrIy _ => some [.fetch 4, .fetch 4, .operand 3, .internal 5, .memRead 4, .memWrite 3]
  | .slaR _ => some [.fetch 4, .fetch 4]
  | .slaHl => some [.fetch 4, .fetch 4, .memRead 4, .memWrite 3]
  | .slaIx _ => some [.fetch 4, .fetch 4, .operand 3, .internal 5, .memRead 4, .memWrite 3]
  | .slaIy _ => some [.fetch 4, .fetch 4, .operand 3, .internal 5, .memRead 4, .memWrite 3]
  | .sraR _ => some [.fetch 4, .fetch 4]
  | .sraHl => some [.fetch 4, .fetch 4, .memRead 4, .memWrite 3]
  | .sraIx _ => some [.fetch 4, .fetch 4, .operand 3, .internal 5, .memRead 4, .memWrite 3]
  | .sraIy _ => some [.fetch 4, .fetch 4, .operand 3, .internal 5, .memRead 4, .memWrite 3]
  | .srlR _ => some [.fetch 4, .fetch 4]
  | .srlHl => some [.fetch 4, .fetch 4, .memRead 4, .memWrite 3]
  | .srlIx _ => some [.fetch 4, .fetch 4, .operand 3, .internal 5, .memRead 4, .memWrite 3]
  | .srlIy _ => some [.fetch 4, .fetch 4, .operand 3, .internal 5, .memRead 4, .memWrite 3]
  | .rld => some [.fetch 4, .fetch 4, .memRead 3, .internal 4, .memWrite 3]
  | .rrd => some [.fetch 4, .fetch 4, .memRead 3, .internal 4, .memWrite 3]
  | .bitR _ _ => some [.fetch 4, .fetch 4]
  | .bitHl _ => some [.fetch 4, .fetch 4, .memRead 4]
  | .bitIx _ _ => some [.fetch 4, .fetch 4, .operand 3, .internal 5, .memRead 4]
  | .bitIy _ _ => some [.fetch 4, .fetch 4, .operand 3, .internal 5, .memRead 4]
  | .setR _ _ => some [.fetch 4, .fetch 4]
  | .setHl _ => some [.fetch 4, .fetch 4, .memRead 4, .memWrite 3]
  | .setIx _ _ => some [.fetch 4, .fetch 4, .operand 3, .internal 5, .memRead 4, .memWrite 3]
  | .setIy _ _ => some [.fetch 4, .fetch 4, .operand 3, .internal 5, .memRead 4, .memWrite 3]
  | .resR _ _ => some [.fetch 4, .fetch 4]
  | .resHl _ => some [.fetch 4, .fetch 4, .memRead 4, .memWrite 3]
  | .resIx _ _ => some [.fetch 4, .fetch 4, .operand 3, .internal 5, .memRead 4, .memWrite 3]
  | .resIy _ _ => some [.fetch 4, .fetch 4, .operand 3, .internal 5, .memRead 4, .memWrite 3]
  | .jpNn _ => some [.fetch 4, .operand 3, .operand 3]
  | .jpCcNn _ _ => some [.fetch 4, .operand 3, .operand 3]
  | .jpHl => some [.fetch 4]
  | .jpIx => some [.fetch 4, .fetch 4]
  | .jpIy => some [.fetch 4, .fetch 4]
  | .jrE _ => some [.fetch 4, .operand 3, .internal 5]
  | .jrNz _ => some (if more then [.fetch 4, .operand 3, .internal 5] else [.fetch 4, .operand 3])
  | .jrZ _ => some (if more then [.fetch 4, .operand 3, .internal 5] else [.fetch 4, .operand 3])
  | .jrNc _ => some (if more then [.fetch 4, .operand 3, .internal 5] else [.fetch 4, .operand 3])
  | .jrC _ => some (if more then [.fetch 4, .operand 3, .internal 5] else [.fetch 4, .operand 3])
  | .djnz _ => some (if more then [.fetch 5, .operand 3, .internal 5] else [.fetch 5, .operand 3])
  | .callNn _ => some [.fetch 4, .operand 3, .operand 4, .memWrite 3, .memWrite 3]
  | .callCcNn _ _ =>
    some (if more then [.fetch 4, .operand 3, .operand 4, .memWrite 3, .memWrite 3] else [.fetch 4, .operand 3, .operand 3])
  | .ret => some [.fetch 4, .memRead 3, .memRead 3]
  | .retCc _ => some (if more then [.fetch 5, .memRead 3, .memRead 3] else [.fetch 5])
  | .reti => some [.fetch 4, .fetch 4, .memRead 3, .memRead 3]
  | .retn => some [.fetch 4, .fetch 4, .memRead 3, .memRead 3]
  | .rstP _ => some [.fetch 5, .memWrite 3, .memWrite 3]
  | .inAN _ => some [.fetch 4, .operand 3, .portRead 4]
  | .inRC _ => some [.fetch 4, .fetch 4, .portRead 4]
  | .outNA _ => some [.fetch 4, .operand 3, .portWrite 4]
  | .outCR _ => some [.fetch 4, .fetch 4, .portWrite 4]
  | .ini => some [.fetch 4, .fetch 5, .portRead 4, .memWrite 3]
  | .ind => some [.fetch 4, .fetch 5, .portRead 4, .memWrite 3]
  | .inir =>
    some (if more then [.fetch 4, .fetch 5, .portRead 4, .memWrite 3, .internal 5] else [.fetch 4, .fetch 5, .portRead 4, .memWrite 3])
  | .indr =>
    some (if more then [.fetch 4, .fetch 5, .portRead 4, .memWrite 3, .internal 5] else [.fetch 4, .fetch 5, .portRead 4, .memWrite 3])
  | .outi => some [.fetch 4, .fetch 5, .memRead 3, .portWrite 4]
  | .outd => some [.fetch 4, .fetch 5, .memRead 3, .portWrite 4]
  | .otir =>
    some (if more then [.fetch 4, .fetch 5, .memRead 3, .portWrite 4, .internal 5] else [.fetch 4, .fetch 5, .memRead 3, .portWrite 4])
  | .otdr =>
    some (if more then [.fetch 4, .fetch 5, .memRead 3, .portWrite 4, .internal 5] else [.fetch 4, .fetch 5, .memRead 3, .portWrite 4])
  | .nop => some [.fetch 4]
  | .halt => some [.fetch 4]
  | .di => some [.fetch 4]
  | .ei => some [.fetch 4]
  | .im0 => some [.fetch 4, .fetch 4]
  | .im1 => some [.fetch 4, .fetch 4]
  | .im2 => some [.fetch 4, .fetch 4]

/-- The clocks of an instruction (R595): the sum over its cycles. -/
def clocksOf (more : Bool) (i : Instr) : Option Nat := (cyclesOf more i).map fun cs => (cs.map MachineCycle.clocks).sum

/-- The internal cycles of an instruction right after its fetch: its cycles before the first access to data that no byte of the
instruction is fetched in. DD CB and FD CB forms have none, because the table's cycle after the displacement is that of the
operation byte (R103, R595, DEDUCED, log entry 6); nor have the two instructions that the table leaves out (DESIGN CHOICE, log
entry 22). -/
def internalCycles (more : Bool) (i : Instr) : Nat :=
  match cyclesOf more i with
  | some cs => (cs.takeWhile MachineCycle.early).length - i.length
  | none => 0

/-- The clocks of a non-maskable interrupt (R596). -/
def nmiClocks : Nat := 11

/-- The clocks of a mode 0 interrupt with a supplied CALL, and with a supplied RST (R596, C31). -/
def mode0Clocks (call : Bool) : Nat := if call then 19 else 12

/-- The clocks of a mode 1 interrupt (R596). -/
def mode1Clocks : Nat := 13

/-- The clocks of a mode 2 interrupt (R596). -/
def mode2Clocks : Nat := 19

end Sys2Proof.Machine
end

