-- ==== Sys2Proof/Machine/Fetch.lean ====
section
/-! DEFINITION. Fetching an instruction byte by byte and executing it (R92), and placing one where the next step will fetch it. -/

namespace Sys2Proof.Machine

/-- The content of memory at an address, as a fetch sees it (R62, R92). -/
def State.fetchByte (s : State) (a : Word) : Byte := s.board.peek s.tick .fetch a

/-- The four bytes at PC, the most that an instruction has (R90). -/
def State.window (s : State) : List Byte :=
  [s.fetchByte s.pc, s.fetchByte (s.pc + 1#16), s.fetchByte (s.pc + 2#16), s.fetchByte (s.pc + 3#16)]

/-- The state an instruction acts on: PC is past its bytes (R26, R92), and R has counted its M1 cycles (R38). -/
def State.fetched (s : State) (i : Instr) : State :=
  { s with pc := s.pc + BitVec.ofNat 16 i.length, r := refresh s.r i.m1Cycles }

/-! ## The fetch -/

/-- A byte read through PC: an ordinary read of memory, which a memory-mapped device sees (R62, R79). -/
def State.fetchCycle (s : State) (a : Word) : Byte × State :=
  let r := s.board.memRead s.tick .fetch a
  (r.1, { s with board := r.2 })

/-- The instruction is a relative jump that is taken here (R340 to R345). -/
def State.jumpsRelative (s : State) : Instr → Bool
  | .jrE _ => true
  | .jrNz _ => !s.regs.f.z
  | .jrZ _ => s.regs.f.z
  | .jrNc _ => !s.regs.f.c
  | .jrC _ => s.regs.f.c
  | .djnz _ => s.regs.b != 1#8
  | _ => false

/-- After the first byte of an instruction the next one is an opcode byte too, fetched in an M1 cycle (R38, R92). -/
def isPrefix (v : Byte) : Bool := v == 0xCB#8 || v == 0xDD#8 || v == 0xED#8 || v == 0xFD#8

/-- The first byte of an instruction (R92). -/
def State.fetchFirst (s : State) (k : Byte → State → Result) : Result :=
  (s.fetchCycle s.pc).2.afterM1 (k (s.fetchCycle s.pc).1)

/-- One more byte, after the bytes `got`: a machine cycle of its own, after its gap (R92, R78). -/
def State.fetchNext (s : State) (got : List Byte) (k : Byte → State → Result) : Result :=
  s.cycle fun t =>
    let r := t.fetchCycle (t.pc + BitVec.ofNat 16 got.length)
    if got.length = 1 ∧ isPrefix (got.headD 0#8) = true then r.2.afterM1 (k r.1) else k r.1 r.2

/-- The rest of an instruction of which the bytes `got` have been fetched: it runs as soon as they are an instruction, after the internal
cycles that come before its first access to data (R594, R595); bytes that no instruction begins with are a fault, with no further byte
fetched (R92, R118, D15); else one more byte comes. Four bytes are always enough (R90). -/
def State.fetchRest : Nat → List Byte → State → Result
  | 0, got, _ => .fault (.unspecifiedOpcode got)
  | more + 1, got, s =>
    match decode got with
    | .ok (i, _) => s.internal (internalCycles (s.jumpsRelative i) i) fun t => exec i (t.fetched i)
    | .error (.unspecified bytes) => .fault (.unspecifiedOpcode bytes)
    | .error (.truncated _) => s.fetchNext got fun v t => State.fetchRest more (got ++ [v]) t

/-- Fetch, decode and execute one instruction (R92, R425 case 6). -/
def State.runInstruction (s : State) : Result := s.fetchFirst fun v t => State.fetchRest 4 [v] t

/-! ## Placing an instruction -/

/-- Four bytes written at an address and after it. -/
def State.placeBytes (s : State) (a : Word) : List Byte → State
  | [] => s
  | v :: rest => State.placeBytes (s.write a v) (a + 1#16) rest

/-- The bytes at an address and after it are these. -/
def State.holdsBytes (s : State) (a : Word) : List Byte → Bool
  | [] => true
  | v :: rest =>
    (match s.board.locate a with
      | some r => decide (cellRead s.board.mem (r.cell a) = v)
      | none => false) && s.holdsBytes (a + 1#16) rest

/-- One more than the largest cell number in use. -/
def Memory.fresh (m : Memory) : Nat := m.foldl (fun n c => max n (c.1 + 1)) 0x10000

/-- Writable cells for four addresses from `a` on, in front of the platform's map. -/
def State.mapFour (s : State) (a : Word) : State :=
  let fresh := Memory.fresh s.board.mem
  let region := fun (k : Nat) =>
    ({ mask := 0xFFFF#16, select := a + BitVec.ofNat 16 k, kind := .ram, base := fresh + k, within := 0#16 } : Region)
  { s with board :=
    { s.board with
      memmap := [region 0, region 1, region 2, region 3] ++ s.board.memmap
      overlay := s.board.overlay.map fun o => { o with active := false } } }

/-- The four addresses from `a` on reach four cells of RAM. -/
def State.writableFour (s : State) (a : Word) : Bool :=
  let cell := fun (k : Nat) =>
    (s.board.locate (a + BitVec.ofNat 16 k)).bind fun r =>
      if r.kind = .ram then some (r.cell (a + BitVec.ofNat 16 k)) else none
  match cell 0, cell 1, cell 2, cell 3 with
  | some p, some q, some r, some t => decide (p ≠ q ∧ p ≠ r ∧ p ≠ t ∧ q ≠ r ∧ q ≠ t ∧ r ≠ t)
  | _, _, _, _ => false

/-- `s` with four bytes at PC, so that the next step fetches them: nothing that would come before an instruction is waiting (no
input, no NMI, no maskable interrupt, no HALT state, no DMA request). Where the four addresses are not four cells of RAM, RAM is
mapped there (DESIGN CHOICE, log entry 7). -/
def State.place (s : State) (bs : List Byte) : State :=
  let base := if s.writableFour s.pc then s else s.mapFour s.pc
  let t := base.placeBytes s.pc bs
  { t with
    halted := false, nmiPending := false
    eiDelay := s.eiDelay || s.iff1
    inputs := Input.quiet :: s.inputs
    board := { t.board with dmas := t.board.dmas.map fun d => { d with enabled := false } } }

end Sys2Proof.Machine
end

