-- ==== Sys2Proof/Machine/Boundary.lean ====
section
/-! DEFINITION. The instruction boundary (R422 to R425): the host's inputs arrive, one of the cases of R425 is chosen, and it is
carried out. -/

namespace Sys2Proof.Machine

/-- The cases of R425, with the bus request of a DMA chip beside the external one, and the broken duty of a bus master that acts
without the bus (R470). -/
inductive Boundary where
  | masterWithoutBus
  | reset
  | externalGrant
  | dmaGrant (n : Nat)
  | nmi
  | int
  | idle
  | run
deriving DecidableEq, Repr

/-- The host's inputs for this boundary; none left means that all lines are at rest (R470). -/
def State.input (s : State) : Input := s.inputs.headD Input.quiet

/-- The start of every step: the inputs are taken, an NMI edge is latched (R42), the peripherals act on the chips, a DMA may
make its interrupt request (R552), what falls between the machine cycles of the step is laid ready (R78), and the step counter
advances. -/
def State.arrive (s : State) : State :=
  let inp := s.input
  { s with
    inputs := s.inputs.tail
    nmiPending := s.nmiPending || inp.nmi
    board := (s.board.events (s.tick + 1) inp.events).pollDmas
    gaps := inp.between
    tick := s.tick + 1 }

/-- INT is low: a device of the host's or a unit of the chain pulls it (R434, R445). -/
def State.intLine (s : State) (inp : Input) : Bool := inp.int || s.board.requester.isSome

/-- Which case of R425 applies, in the order of priority of R422; `s` is the state after `arrive`. An external request comes before that
of a DMA, also between two bytes of a continuous or burst operation that still holds the bus (R75, DESIGN CHOICE, log entry 10). -/
def State.boundary (s : State) (inp : Input) : Boundary :=
  if inp.master ≠ [] ∧ (inp.reset = true ∨ inp.busrq = false) then .masterWithoutBus
  else if inp.reset then .reset
  else if inp.busrq then .externalGrant
  else
    match s.board.busWanted false with
    | some n => .dmaGrant n
    | none =>
      if s.nmiPending then .nmi
      else if s.intLine inp && s.iff1 && !s.eiDelay then .int
      else if s.halted then .idle
      else .run

/-- A board as the outcome of a bus master's work: the CPU does not change (R460). -/
def State.withBoard (s : State) (r : Except Refusal Board) : Result :=
  match r with
  | .ok b => .next { s with board := { b with log := .busGrant :: b.log } }
  | .error e => .refused e

/-- The CPU has the bus: a DMA that gave it back may ask again after the next machine cycle, and none holds the bus (R542, R543). -/
def State.resume (s : State) : State := { s with board := s.board.resumeDmas }

/-- A step of the CPU. -/
def State.cpuStep (s : State) (case : Boundary) (ack : List Byte) : Result :=
  match case with
  | .nmi => s.resume.takeNmi
  | .int => s.resume.takeInt ack
  | .idle => s.resume.idle
  | _ => s.resume.runInstruction

/-- Carries out the case chosen at a boundary (R425). -/
def State.carryOut (s : State) (inp : Input) : Result :=
  match s.boundary inp with
  | .masterWithoutBus => .refused .masterWithoutBus
  | .reset => .next s.performReset
  | .externalGrant => s.withBoard (s.board.masterAccesses s.tick inp.master)
  | .dmaGrant n => s.withBoard (s.board.dmaByte s.tick n)
  | case => s.cpuStep case inp.ack

end Sys2Proof.Machine
end

