-- ==== Sys2Proof/Machine/Step.lean ====
section
/-! DEFINITION. One step of the machine (R10, R425), and the placing of an instruction for the next step. -/

namespace Sys2Proof.Machine

/-- One step: the inputs of the boundary arrive and the first case of R425 that applies is carried out. -/
def step (s : State) : Host.Outcome State Fault Refusal := s.arrive.carryOut s.input

/-- `s` with the instruction of a table word stored at PC, so that the very next step runs it; every bit above `nbits` is 0
(DESIGN CHOICE, log entry 7). -/
def State.withFetchWord (s : State) (nbits w : Nat) : State := s.place (tableBytes nbits w)

end Sys2Proof.Machine
end

