-- ==== Sys2Proof/Safety.lean ====
section
/-! DEFINITION. The terms in which statements speak of steps: completing, what is left alone, what is stored, and the invariant of
the machine's data. -/

namespace Sys2Proof.Machine

/-- The outcome is a next state. -/
def Completes (o : Host.Outcome State Fault Refusal) : Prop := ∃ t, o = .next t

/-! ## Memory -/

/-- Every address reads as before. -/
def SameMemory (s t : State) : Prop := ∀ a, t.read a = s.read a

/-- A store to `a` reaches the cell that `a'` reads: RAM that takes it answers at `a`, and `a'` sees the same cell. -/
def State.reaches (s : State) (a a' : Word) : Prop := s.board.isRam a ∧ s.board.sameCell a a'

/-- The byte `v` was stored at `a` (R63, R70): every address of that RAM cell reads `v`, every other address as before; a
memory-mapped device, and nothing else, shows the access (R62). -/
structure Stored (s t : State) (a : Word) (v : Byte) : Prop where
  hit : ∀ a', s.reaches a a' → t.read a' = v
  miss : ∀ a', ¬s.reaches a a' → t.read a' = s.read a'
  seen : t.board.log = if s.board.isDevice a then .memWrite a v :: s.board.log else s.board.log

/-- The byte `v₁` was stored at `a₁`, and after it `v₂` at `a₂`. -/
structure StoredTwo (s t : State) (a₁ : Word) (v₁ : Byte) (a₂ : Word) (v₂ : Byte) : Prop where
  second : ∀ a', s.reaches a₂ a' → t.read a' = v₂
  first : ∀ a', s.reaches a₁ a' → ¬s.reaches a₂ a' → t.read a' = v₁
  miss : ∀ a', ¬s.reaches a₁ a' → ¬s.reaches a₂ a' → t.read a' = s.read a'

/-! ## Frames -/

/-- `t` is `s` but for the main registers, and `ei_delay` is 0. -/
def OnlyRegs (s t : State) : Prop := t = { s with regs := t.regs, eiDelay := false } ∧ SameMemory s t

/-- `t` is `s` but for the content of memory and the log, and `ei_delay` is 0. -/
def OnlyMem (s t : State) : Prop :=
  t = { s with board := { s.board with mem := t.board.mem, log := t.board.log }, eiDelay := false }

/-- `t` is `s` but for the content of memory, the log and the flags, and `ei_delay` is 0. -/
def OnlyMemFlags (s t : State) : Prop :=
  t = { s with
    regs := { s.regs with f := t.regs.f }
    board := { s.board with mem := t.board.mem, log := t.board.log }
    eiDelay := false }

/-- Register `r` got the value `v`; no other register but F, and nothing else, changed. -/
structure WritesReg (s t : State) (r : Reg8) (v : Byte) : Prop where
  value : t.reg8 r = v
  others : ∀ q, q ≠ r → t.reg8 q = s.reg8 q
  rest : OnlyRegs s t

/-- Register `r` got the value `v`; nothing else changed. -/
structure LoadsReg (s t : State) (r : Reg8) (v : Byte) : Prop where
  writes : WritesReg s t r v
  flags : t.regs.f = s.regs.f

/-- The register is one of the two of the pair. -/
def pairHas : PairSp → Reg8 → Bool
  | .bc, .b | .bc, .c | .de, .d | .de, .e | .hl, .h | .hl, .l => true
  | _, _ => false

/-- The pair `p` got the value `w`; no other register, no flag and no memory changed. -/
structure LoadsPair (s t : State) (p : PairSp) (w : Word) : Prop where
  value : t.pairSp p = w
  others : ∀ q, pairHas p q = false → t.reg8 q = s.reg8 q
  sp : p ≠ .sp → t.sp = s.sp
  flags : t.regs.f = s.regs.f
  rest : t = { s with regs := t.regs, sp := t.sp, eiDelay := false }
  memory : SameMemory s t

/-! ## Instructions with machine cycles of their own

`o s` is what an instruction answers at `s`. Before each of its machine cycles comes a gap in which the rest of the machine may act
(R78, D23): `s.gap = .ok m` says that nothing cuts the instruction short there and that `m` is the state after it. With no gap
listed `m` is `s`. -/

/-- `t` is `s` after `n` internal cycles, each of which has its gap and no access (R78, R594, R595). -/
def Idles : Nat → State → State → Prop
  | 0, s, t => t = s
  | n + 1, s, t => ∃ m, s.gap = .ok m ∧ Idles n m t

/-- One read cycle at `a`: it completes; `post` holds of the state after the cycle, the byte read and the next state; memory is as it
was before the cycle. -/
def ReadsOnce (o : State → Result) (s : State) (a : Word) (post : State → Byte → State → Prop) : Prop :=
  ∀ m, s.gap = .ok m → ∃ t, o s = .next t ∧ SameMemory m t ∧ post (m.memRead a).2 (m.memRead a).1 t

/-- Two read cycles, at `a₁` and then at `a₂`; `post` holds of the state after them, the word whose low byte was read first, and the
next state. -/
def ReadsTwice (o : State → Result) (s : State) (a₁ a₂ : Word) (post : State → Word → State → Prop) : Prop :=
  ∀ m n, s.gap = .ok m → (m.memRead a₁).2.gap = .ok n →
    ∃ t, o s = .next t ∧ SameMemory n t ∧ post (n.memRead a₂).2 ((n.memRead a₂).1 ++ (m.memRead a₁).1) t

/-- One write cycle of `v` at `a`: it completes and stores the byte; `post` holds of the state before the cycle and the next state. -/
def WritesOnce (o : State → Result) (s : State) (a : Word) (v : Byte) (post : State → State → Prop) : Prop :=
  ∀ m, s.gap = .ok m → ∃ t, o s = .next t ∧ Stored m t a v ∧ post m t

/-- Two write cycles, of `v₁` at `a₁` and then of `v₂` at `a₂`: `m` is the state before the first, `n` the one before the second; where
nothing happens between them, both bytes are stored. -/
def WritesTwice (o : State → Result) (s : State) (a₁ : Word) (v₁ : Byte) (a₂ : Word) (v₂ : Byte)
    (post : State → State → Prop) : Prop :=
  ∀ m n, s.gap = .ok m → (m.write a₁ v₁).gap = .ok n →
    ∃ t, o s = .next t ∧ Stored m (m.write a₁ v₁) a₁ v₁ ∧ Stored n t a₂ v₂ ∧ post n t ∧
      (n = m.write a₁ v₁ → StoredTwo m t a₁ v₁ a₂ v₂)

/-- A read cycle at `a` and then a write cycle at `a'` of `res v`, `v` the byte read; `post` holds of the state before the write, the
byte read and the next state. -/
def ReadsThenWrites (o : State → Result) (s : State) (a a' : Word) (res : Byte → Byte) (post : State → Byte → State → Prop) :
    Prop :=
  ∀ m n, s.gap = .ok m → (m.memRead a).2.gap = .ok n →
    ∃ t, o s = .next t ∧ Stored n t a' (res (m.memRead a).1) ∧ post n (m.memRead a).1 t

/-- As `ReadsThenWrites`, with an internal cycle between the two (R595). -/
def ReadsIdlesThenWrites (o : State → Result) (s : State) (a a' : Word) (res : Byte → Byte) (post : State → Byte → State → Prop) :
    Prop :=
  ∀ m p n, s.gap = .ok m → Idles 1 (m.memRead a).2 p → p.gap = .ok n →
    ∃ t, o s = .next t ∧ Stored n t a' (res (m.memRead a).1) ∧ post n (m.memRead a).1 t

/-! ## Forms of operands -/

/-- The five forms of an operation on A (R220): each completes, and `post x v t` holds of the state `x` that the operation works on,
the operand `v` and the next state. -/
def AccumulatorForms (reg : Reg8 → Instr) (imm : Byte → Instr) (hl : Instr) (ix iy : Byte → Instr)
    (post : State → Byte → State → Prop) : Prop :=
  ∀ s : State,
    (∀ r, ∃ t, exec (reg r) s = .next t ∧ post s (s.reg8 r) t) ∧
    (∀ n, ∃ t, exec (imm n) s = .next t ∧ post s n t) ∧
    ReadsOnce (exec hl) s s.hl post ∧
    (∀ d, ReadsOnce (exec (ix d)) s (s.ix + d.signExtend 16) post) ∧
    (∀ d, ReadsOnce (exec (iy d)) s (s.iy + d.signExtend 16) post)

/-- The four forms of an operation that replaces a byte `v` (R235, R295): each completes, the byte becomes `res s v`, and
`post s v t` holds of the byte before and the next state. -/
def ByteForms (reg : Reg8 → Instr) (hl : Instr) (ix iy : Byte → Instr) (res : State → Byte → Byte)
    (post : State → Byte → State → Prop) : Prop :=
  ∀ s : State,
    (∀ r, ∃ t, exec (reg r) s = .next t ∧ WritesReg s t r (res s (s.reg8 r)) ∧ post s (s.reg8 r) t) ∧
    ReadsThenWrites (exec hl) s s.hl s.hl (res s) (fun n v t => OnlyMemFlags n t ∧ post s v t) ∧
    (∀ d, ReadsThenWrites (exec (ix d)) s (s.ix + d.signExtend 16) (s.ix + d.signExtend 16) (res s)
      (fun n v t => OnlyMemFlags n t ∧ post s v t)) ∧
    (∀ d, ReadsThenWrites (exec (iy d)) s (s.iy + d.signExtend 16) (s.iy + d.signExtend 16) (res s)
      (fun n v t => OnlyMemFlags n t ∧ post s v t))

/-! ## Fetching -/

/-- `t` is `s` after its M1 cycle: a transparent DMA may have had its byte (R542). -/
def AfterM1 (s t : State) : Prop := ∃ b, s.board.transparentByte s.tick = .ok b ∧ t = { s with board := b }

/-- The bytes `rest` are fetched after the bytes `got`, each by a machine cycle after its gap; the second byte of a prefixed
instruction by an M1 cycle (R92). -/
def FetchesRest : List Byte → List Byte → State → State → Prop
  | _, [], s, t => t = s
  | got, v :: rest, s, t => ∃ g u, s.gap = .ok g ∧ (g.fetchCycle (g.pc + BitVec.ofNat 16 got.length)).1 = v ∧
      (if got.length = 1 ∧ got.headD 0#8 ∈ [0xCB#8, 0xDD#8, 0xED#8, 0xFD#8]
        then AfterM1 (g.fetchCycle (g.pc + BitVec.ofNat 16 got.length)).2 u
        else u = (g.fetchCycle (g.pc + BitVec.ofNat 16 got.length)).2) ∧
      FetchesRest (got ++ [v]) rest u t

/-- The bytes are fetched from PC on, the first by an M1 cycle; `t` is the state after them, with PC and R not yet moved. -/
def Fetches (s : State) : List Byte → State → Prop
  | [], _ => False
  | v :: rest, t => ∃ u, (s.fetchCycle s.pc).1 = v ∧ AfterM1 (s.fetchCycle s.pc).2 u ∧ FetchesRest [v] rest u t

/-- `m` is the state after the acknowledge cycle of a maskable interrupt, `v` the byte it delivered and `ops` what is left for the
operand cycles of a supplied CALL (R434, R436). -/
def Acknowledges (s : State) (ack : List Byte) (v : Byte) (ops : List Byte) (m : State) : Prop :=
  (s.respondInt.intAck ack).1 = v ∧ (s.respondInt.intAck ack).2.1 = ops ∧ AfterM1 (s.respondInt.intAck ack).2.2 m

/-- Nothing but memory answers at the four addresses from PC on. -/
def NoDeviceAtPc (s : State) : Prop := ∀ k, k < 4 → s.board.isDevice (s.pc + BitVec.ofNat 16 k) = false

/-! ## The invariant -/

/-- A PIO never holds an odd vector (R486), its port B is never in mode 2 (R487), and ready is 0 in mode 3, but B RDY while it serves
port A in mode 2 (R485). -/
structure Pio.Legal (p : Pio) : Prop where
  vectorA : p.a.vector.getLsbD 0 = false
  vectorB : p.b.vector.getLsbD 0 = false
  modeB : p.b.mode ≠ .bidirectional
  readyA : p.a.mode = .bitControl → p.a.ready = false
  readyB : p.b.mode = .bitControl → p.a.mode ≠ .bidirectional → p.b.ready = false

/-- A CTC's vector register holds five bits (R525, R536). -/
def Ctc.Legal (p : Ctc) : Prop := p.vector &&& 0x07#8 = 0#8

/-- What holds of every state the machine can be in: memory is in its canonical form, and the chips' registers hold what they
can hold. -/
structure State.Inv (s : State) : Prop where
  mem : Memory.wf s.board.mem
  pios : ∀ p ∈ s.board.pios, p.Legal
  ctcs : ∀ p ∈ s.board.ctcs, p.Legal

end Sys2Proof.Machine

namespace Sys2Proof

/-! ## Which instructions write what -/

/-- The instructions of table 16, and POP AF and EX AF,AF', which replace F as data (R37). -/
def Instr.writesFlags : Instr → Bool
  | .addAR _ | .addAN _ | .addAHl | .addAIx _ | .addAIy _ | .adcAR _ | .adcAN _ | .adcAHl | .adcAIx _ | .adcAIy _ => true
  | .subR _ | .subN _ | .subHl | .subIx _ | .subIy _ | .sbcAR _ | .sbcAN _ | .sbcAHl | .sbcAIx _ | .sbcAIy _ => true
  | .andR _ | .andN _ | .andHl | .andIx _ | .andIy _ | .xorR _ | .xorN _ | .xorHl | .xorIx _ | .xorIy _ => true
  | .orR _ | .orN _ | .orHl | .orIx _ | .orIy _ | .cpR _ | .cpN _ | .cpHl | .cpIx _ | .cpIy _ => true
  | .incR _ | .incHl | .incIxd _ | .incIyd _ | .decR _ | .decHl | .decIxd _ | .decIyd _ => true
  | .daa | .cpl | .neg | .ccf | .scf => true
  | .addHlSs _ | .addIxPp _ | .addIyRr _ | .adcHlSs _ | .sbcHlSs _ => true
  | .rlca | .rrca | .rla | .rra | .rld | .rrd => true
  | .rlcR _ | .rlcHl | .rlcIx _ | .rlcIy _ | .rrcR _ | .rrcHl | .rrcIx _ | .rrcIy _ => true
  | .rlR _ | .rlHl | .rlIx _ | .rlIy _ | .rrR _ | .rrHl | .rrIx _ | .rrIy _ => true
  | .slaR _ | .slaHl | .slaIx _ | .slaIy _ | .sraR _ | .sraHl | .sraIx _ | .sraIy _ => true
  | .srlR _ | .srlHl | .srlIx _ | .srlIy _ => true
  | .bitR _ _ | .bitHl _ | .bitIx _ _ | .bitIy _ _ => true
  | .ldi | .ldd | .ldir | .lddr | .cpi | .cpd | .cpir | .cpdr => true
  | .inRC _ | .ini | .ind | .inir | .indr | .outi | .outd | .otir | .otdr => true
  | .ldAI | .ldAR | .popQq .af | .exAfAf => true
  | _ => false

/-- The instructions with a memory write among their bus cycles (R63, R65). -/
def Instr.storesMemory : Instr → Bool
  | .ldHlR _ | .ldIxR _ _ | .ldIyR _ _ | .ldHlN _ | .ldIxN _ _ | .ldIyN _ _ | .ldBcA | .ldDeA | .ldMemA _ => true
  | .ldMemHl _ | .ldMemDd _ _ | .ldMemIx _ | .ldMemIy _ | .pushQq _ | .pushIx | .pushIy | .exSpHl | .exSpIx | .exSpIy => true
  | .ldi | .ldd | .ldir | .lddr | .incHl | .incIxd _ | .incIyd _ | .decHl | .decIxd _ | .decIyd _ => true
  | .rlcHl | .rlcIx _ | .rlcIy _ | .rrcHl | .rrcIx _ | .rrcIy _ | .rlHl | .rlIx _ | .rlIy _ => true
  | .rrHl | .rrIx _ | .rrIy _ | .slaHl | .slaIx _ | .slaIy _ | .sraHl | .sraIx _ | .sraIy _ => true
  | .srlHl | .srlIx _ | .srlIy _ | .rld | .rrd => true
  | .setHl _ | .setIx _ _ | .setIy _ _ | .resHl _ | .resIx _ _ | .resIy _ _ => true
  | .callNn _ | .callCcNn _ _ | .rstP _ | .ini | .ind | .inir | .indr => true
  | _ => false

/-- The instructions with a data cycle in memory: reads, writes and the stack (R62, R63). -/
def Instr.usesMemory (i : Instr) : Bool :=
  i.storesMemory ||
    match i with
    | .ldRHl _ | .ldRIx _ _ | .ldRIy _ _ | .ldABc | .ldADe | .ldAMem _ => true
    | .ldHlMem _ | .ldDdMem _ _ | .ldIxMem _ | .ldIyMem _ | .popQq _ | .popIx | .popIy => true
    | .addAHl | .addAIx _ | .addAIy _ | .adcAHl | .adcAIx _ | .adcAIy _ | .subHl | .subIx _ | .subIy _ => true
    | .sbcAHl | .sbcAIx _ | .sbcAIy _ | .andHl | .andIx _ | .andIy _ | .xorHl | .xorIx _ | .xorIy _ => true
    | .orHl | .orIx _ | .orIy _ | .cpHl | .cpIx _ | .cpIy _ | .bitHl _ | .bitIx _ _ | .bitIy _ _ => true
    | .cpi | .cpd | .cpir | .cpdr | .outi | .outd | .otir | .otdr => true
    | .ret | .retCc _ | .reti | .retn => true
    | _ => false

/-- The instructions with an I/O cycle, and RETI, which the chips hear (R61, R357). -/
def Instr.reachesDevices : Instr → Bool
  | .inAN _ | .inRC _ | .outNA _ | .outCR _ => true
  | .ini | .ind | .inir | .indr | .outi | .outd | .otir | .otdr | .reti => true
  | _ => false

/-- The instructions that can set PC to another address than the next instruction's (R201, R330). -/
def Instr.movesPc : Instr → Bool
  | .jpNn _ | .jpCcNn _ _ | .jpHl | .jpIx | .jpIy | .jrE _ | .jrNz _ | .jrZ _ | .jrNc _ | .jrC _ | .djnz _ => true
  | .callNn _ | .callCcNn _ _ | .ret | .retCc _ | .reti | .retn | .rstP _ => true
  | .ldir | .lddr | .cpir | .cpdr | .inir | .indr | .otir | .otdr => true
  | _ => false

end Sys2Proof
end

