-- ==== Sys2Proof/Certificates/Slice0/Obligations.lean ====
section
/-! DEFINITION. The statements for the provers, from the numbered rules of the spec. A flag that a statement does not mention is one
the spec leaves open (R11). `s.pc` in a statement about `exec` is the address after the instruction (R92). -/

open Sys2Proof Sys2Proof.Machine

/-! ## Encoding -/

/-- The decoder reads back every instruction that the encoder writes, whatever bytes follow. -/
def Obligations.DecodeOfEncodeIsTheInstruction : Prop :=
  ∀ (i : Instr) (rest : List Byte), i.WellFormed → decode (encode i ++ rest) = .ok (i, rest)

/-- What the decoder reads is a well-formed instruction whose encoding stands at the front: every word has one meaning. -/
def Obligations.DecodedBytesAreTheEncoding : Prop :=
  ∀ (bytes rest : List Byte) (i : Instr), decode bytes = .ok (i, rest) → i.WellFormed ∧ bytes = encode i ++ rest

/-- Words made from the spec's encodings decode to the instructions they stand for (R130; R67, R107, R160; R95, R135; R101; R112, R386;
R114). -/
def Obligations.SampleWordsDecode : Prop :=
  decode [0x53#8] = .ok (.ldRR .d .e, []) ∧
  decode [0x11#8, 0x34#8, 0x12#8] = .ok (.ldDdNn .de 0x1234#16, []) ∧
  decode [0xDD#8, 0x77#8, 0x05#8] = .ok (.ldIxR 0x05#8 .a, []) ∧
  decode [0xCB#8, 0x48#8] = .ok (.bitR 1 .b, []) ∧
  decode [0xED#8, 0xB3#8] = .ok (.otir, []) ∧
  decode [0xDD#8, 0xCB#8, 0x05#8, 0x4E#8] = .ok (.bitIx 1 0x05#8, [])

/-- How many values of the byte after `pre` make a defined instruction, prefix bytes listed in `skip` apart (R115). -/
def definedAfter (pre : List Byte) (skip : List Nat) : Nat :=
  (List.range 256).countP fun k =>
    !skip.contains k && (decode (pre ++ [BitVec.ofNat 8 k, 0#8, 0#8])).toOption.isSome

/-- R115: the number of defined opcodes in each map. -/
def Obligations.OpcodeCountsOfTheMaps : Prop :=
  definedAfter [] [0xCB, 0xDD, 0xED, 0xFD] = 252 ∧
  definedAfter [0xCB#8] [] = 248 ∧
  definedAfter [0xED#8] [] = 58 ∧
  definedAfter [0xDD#8] [0xCB] = 39 ∧
  definedAfter [0xFD#8] [0xCB] = 39 ∧
  definedAfter [0xDD#8, 0xCB#8, 0#8] [] = 31 ∧
  definedAfter [0xFD#8, 0xCB#8, 0#8] [] = 31

/-! ## The step -/

/-- The internal cycles between the fetch of an instruction and its first access to data or its end, as R595 lists them: two for a
sum of words, one where an address is made from a displacement and no byte of the instruction is fetched meanwhile (R103), which a
relative jump does only if it is taken. -/
def Sys2Proof.Machine.idlesAfterFetch (s : State) : Instr → Nat
  | .addHlSs _ | .adcHlSs _ | .sbcHlSs _ | .addIxPp _ | .addIyRr _ => 2
  | .ldRIx _ _ | .ldRIy _ _ | .ldIxR _ _ | .ldIyR _ _ => 1
  | .addAIx _ | .addAIy _ | .adcAIx _ | .adcAIy _ | .subIx _ | .subIy _ | .sbcAIx _ | .sbcAIy _ => 1
  | .andIx _ | .andIy _ | .xorIx _ | .xorIy _ | .orIx _ | .orIy _ | .cpIx _ | .cpIy _ => 1
  | .incIxd _ | .incIyd _ | .decIxd _ | .decIyd _ => 1
  | .jrE _ => 1
  | .jrNz _ => if s.regs.f.z then 0 else 1
  | .jrZ _ => if s.regs.f.z then 1 else 0
  | .jrNc _ => if s.regs.f.c then 0 else 1
  | .jrC _ => if s.regs.f.c then 1 else 0
  | .djnz _ => if s.regs.b = 1#8 then 0 else 1
  | _ => 0

/-- A step at a boundary where no input comes first runs the instruction whose encoding it fetches, on the state `x` after the fetch
and the internal cycles that follow it, with PC past its bytes and R counted once, or twice where the first byte is one of the four
prefixes. Where nothing happens between the machine cycles, no DMA is on the board and only memory answers at PC, `x` is the state in
which the inputs have arrived and the encoding is that of the instruction decoded there; without inputs that is `s` with the tick
advanced. -/
def Obligations.StepRunsTheDecodedInstruction : Prop :=
  (∀ (s m x : State) (i : Instr), s.arrive.boundary s.input = .run → i.WellFormed → Fetches s.arrive.resume (encode i) m →
    Idles (idlesAfterFetch s i) m x →
    step s = exec i { x with
      pc := x.pc + BitVec.ofNat 16 (encode i).length
      r := (x.r &&& 0x80#8) ||| ((x.r +
        (if (encode i).headD 0#8 ∈ [0xCB#8, 0xDD#8, 0xED#8, 0xFD#8] then 2#8 else 1#8)) &&& 0x7F#8) }) ∧
  (∀ (s : State) (i : Instr) (rest : List Byte), s.board.dmas = [] → s.input.between = [] → NoDeviceAtPc s.arrive →
    decode s.arrive.window = .ok (i, rest) →
    i.WellFormed ∧ Fetches s.arrive.resume (encode i) s.arrive ∧ ∀ n, Idles n s.arrive s.arrive) ∧
  (∀ s : State, s.inputs = [] → s.board.dmas = [] → s.arrive = { s with gaps := [], tick := s.tick + 1 })

/-- An encoding for which the source defines no behaviour stops the machine with the bytes that show it, after these bytes and no
further one have been fetched (R10, R118); four bytes are always enough to decide (R90). -/
def Obligations.UndefinedEncodingStopsTheStep : Prop :=
  (∀ (s m : State) (bytes : List Byte), s.arrive.boundary s.input = .run →
    decode bytes = .error (.unspecified bytes) → Fetches s.arrive.resume bytes m →
    step s = .fault (.unspecifiedOpcode bytes)) ∧
  (∀ (s : State) (bytes : List Byte), s.arrive.boundary s.input = .run → s.board.dmas = [] → s.input.between = [] →
    NoDeviceAtPc s.arrive → decode s.arrive.window = .error (.unspecified bytes) →
    step s = .fault (.unspecifiedOpcode bytes)) ∧
  ∀ (s : State) (got : List Byte), decode s.window ≠ .error (.truncated got)

/-! ## Machine cycles -/

/-- What a machine cycle of the CPU does to memory, and what falls between two of them. A gap leaves the CPU as it is, and with no gap
listed nothing happens (R78, R460); a read returns the content of memory and changes nothing, but that a memory-mapped device
answers with its own byte and shows the access (R62, R470); a write stores its byte (R63). -/
def Obligations.MachineCyclesAndTheirGaps : Prop :=
  (∀ s m : State, s.gap = .ok m → m = { s with board := m.board, gaps := s.gaps.tail }) ∧
  (∀ s : State, s.gaps = [] → s.gap = .ok s) ∧
  (∀ (s : State) (a : Word), s.board.isDevice a = false → s.memRead a = (s.read a, s)) ∧
  (∀ (s : State) (a : Word), s.board.isDevice a = true →
    SameMemory s (s.memRead a).2 ∧
    (s.memRead a).2 = { s with board := { s.board with
      memIn := s.board.memIn.tail, log := .memRead a (s.memRead a).1 :: s.board.log } } ∧
    ∀ v rest, s.board.memIn = v :: rest → (s.memRead a).1 = v) ∧
  ∀ (s : State) (a : Word) (v : Byte), Stored s (s.write a v) a v ∧
    s.write a v = { s with board := { s.board with mem := (s.write a v).board.mem, log := (s.write a v).board.log } }

/-- RESET between two machine cycles cuts an instruction short: the control state is cleared, what the instruction has written stays,
the rest is lost. That an instruction is left between its machine cycles, and never inside one, is the model's choice (log entry 6) and
what R580 says only as derived from R76. The first clause says what the gap answers, the second that every instruction with a data or
I/O cycle (but CALL cc and RET cc, which have one only if they are taken) ends at its first one, the last that it does so between the
two bytes of a word that LD, PUSH or CALL nn stores. -/
def Obligations.ResetCutsAnInstructionShort : Prop :=
  (∀ (s : State) (g : Gap) (rest : List Gap), s.gaps = g :: rest → g.reset = true → g.master = [] →
    ∃ u, s.gap = .error (.next u) ∧ u.pc = 0#16 ∧ u.i = 0#8 ∧ u.r = 0#8 ∧ u.iff1 = false ∧ u.iff2 = false ∧ u.im = .im0 ∧
      u.halted = false ∧ u.eiDelay = false ∧ u.nmiPending = false ∧ u.board.mem = s.board.mem) ∧
  (∀ (i : Instr) (s : State) (o : Result), s.gap = .error o → (i.usesMemory || i.reachesDevices) = true →
    i ≠ .reti → i ≠ .retn → (∀ cc nn, i ≠ .callCcNn cc nn) → (∀ cc, i ≠ .retCc cc) → exec i s = o) ∧
  (∀ (s : State) (o : Result), { s with board := s.board.notifyReti }.gap = .error o → exec .reti s = o) ∧
  (∀ (s : State) (o : Result), { s with iff1 := s.iff2 }.gap = .error o → exec .retn s = o) ∧
  ∀ (s m : State) (o : Result), s.gap = .ok m →
    (∀ nn, (m.write nn s.regs.l).gap = .error o → exec (.ldMemHl nn) s = o) ∧
    (∀ dd nn, (m.write nn (lo (s.pairSp dd))).gap = .error o → exec (.ldMemDd nn dd) s = o) ∧
    (∀ nn, (m.write nn (lo s.ix)).gap = .error o → exec (.ldMemIx nn) s = o) ∧
    (∀ nn, (m.write nn (lo s.iy)).gap = .error o → exec (.ldMemIy nn) s = o) ∧
    (∀ qq, (m.write (s.sp - 1#16) (hi (s.pairAf qq))).gap = .error o → exec (.pushQq qq) s = o) ∧
    ((m.write (s.sp - 1#16) (hi s.ix)).gap = .error o → exec .pushIx s = o) ∧
    ((m.write (s.sp - 1#16) (hi s.iy)).gap = .error o → exec .pushIy s = o) ∧
    ∀ nn, (m.write (s.sp - 1#16) (hi s.pc)).gap = .error o → exec (.callNn nn) s = o

/-- Another bus master may write between two machine cycles of one instruction (R65, R78, R591): its write to (HL) between the read and
the write of INC (HL) is lost, and its write to nn between the two bytes of LD (nn),HL stands beside the new high byte. -/
def Obligations.AnotherMasterBetweenTheCycles : Prop :=
  ∀ (s : State) (w : Byte), s.board.dmas = [] →
    s.gaps = [Gap.quiet, { Gap.quiet with busrq := true, master := [.memWrite s.hl w] }] →
    (s.board.isRam s.hl → ∃ t, exec .incHl s = .next t ∧ t.read s.hl = s.read s.hl + 1#8) ∧
    (s.board.isRam s.hl → s.board.isRam (s.hl + 1#16) → ¬s.board.sameCell (s.hl + 1#16) s.hl →
      ∃ t, exec (.ldMemHl s.hl) s = .next t ∧ t.read s.hl = w ∧ t.read (s.hl + 1#16) = s.regs.h)

/-! ## The boundary -/

/-- A step whose input asserts RESET completes from every state: it clears PC, I, R, the flip-flops and latches, selects mode 0,
and leaves the content of memory as it was (R580). -/
def Obligations.ResetLineClearsTheControlState : Prop :=
  ∀ s : State, s.input.reset = true → s.input.master = [] →
    ∃ t, step s = .next t ∧ t.pc = 0#16 ∧ t.i = 0#8 ∧ t.r = 0#8 ∧ t.iff1 = false ∧ t.iff2 = false ∧ t.im = .im0 ∧
      t.halted = false ∧ t.eiDelay = false ∧ t.nmiPending = false ∧ t.board.mem = s.board.mem

/-- The order of the cases at a boundary (R422, R425), for a host that keeps its duties. That a DMA's request comes before an NMI, and the
external master before a DMA also where that still holds the bus, are the model's choices (log entry 10). -/
def Obligations.BoundaryFollowsThePriorityOrder : Prop :=
  ∀ (s : State) (inp : Input), (inp.master = [] ∨ (inp.busrq = true ∧ inp.reset = false)) →
    (s.boundary inp = .reset ↔ inp.reset = true) ∧
    (s.boundary inp = .externalGrant ↔ inp.reset = false ∧ inp.busrq = true) ∧
    (s.boundary inp = .nmi ↔
      inp.reset = false ∧ inp.busrq = false ∧ s.board.busWanted false = none ∧ s.nmiPending = true) ∧
    (s.boundary inp = .int ↔
      inp.reset = false ∧ inp.busrq = false ∧ s.board.busWanted false = none ∧ s.nmiPending = false ∧
      s.intLine inp = true ∧ s.iff1 = true ∧ s.eiDelay = false)

/-- A maskable interrupt is not accepted at the boundary after EI, whatever the host does and whatever the chips request (R404). -/
def Obligations.NoMaskableInterruptRightAfterEi : Prop :=
  ∀ s : State, ∃ t, exec .ei s = .next t ∧ t.iff1 = true ∧ t.arrive.eiDelay = true ∧
    ∀ inp : Input, t.arrive.boundary inp ≠ .int

/-- Acceptance of a non-maskable interrupt (R426): an opcode byte is read at PC and ignored, `m` is the state after that cycle; then PC is
pushed and goes to 0066H. With no DMA on the board and memory at PC, `m` is the state after arrival but for the flip-flops and
R. -/
def Obligations.NonMaskableInterruptEntry : Prop :=
  (∀ s m : State, s.arrive.boundary s.input = .nmi →
    AfterM1 ({ s.arrive.resume.respond with nmiPending := false }.fetchCycle s.arrive.pc).2 m →
    WritesTwice (fun _ => step s) m (m.sp - 1#16) (hi m.pc) (m.sp - 2#16) (lo m.pc) (fun n t =>
      t = { n with
        pc := 0x0066#16, sp := m.sp - 2#16, board := { n.board with mem := t.board.mem, log := t.board.log } }) ∧
    m = { s.arrive with
      iff1 := false, nmiPending := false, halted := false, eiDelay := false, r := m.r, board := m.board } ∧
    (s.halted = false → m.r = (s.r &&& 0x80#8) ||| ((s.r + 1#8) &&& 0x7F#8)) ∧ m.r &&& 0x80#8 = s.r &&& 0x80#8) ∧
  ∀ s : State, s.board.dmas = [] → s.arrive.board.isDevice s.pc = false →
    ∃ m, AfterM1 ({ s.arrive.resume.respond with nmiPending := false }.fetchCycle s.arrive.pc).2 m ∧
      m.board = s.arrive.board

/-- Where a step that accepts a maskable interrupt goes in each mode, `m` being the state after the acknowledge cycle and `v` its
byte: an RST or a CALL in mode 0 (R437), 0038H in mode 1 (R438), the table entry at I:v, read after the push, in mode 2 (R440). Another
byte in mode 0, a CALL without its two operand bytes (R470), and an odd byte in mode 2 are refused. -/
def Obligations.MaskableInterruptEntryInEachMode : Prop :=
  ∀ (s m : State) (v : Byte) (ops : List Byte), s.arrive.boundary s.input = .int →
    Acknowledges s.arrive.resume s.input.ack v ops m →
    (m.im = .im0 → v &&& 0xC7#8 = 0xC7#8 →
      WritesTwice (fun _ => step s) m (m.sp - 1#16) (hi m.pc) (m.sp - 2#16) (lo m.pc) (fun n t =>
        t = { n with
          pc := (v &&& 0x38#8).setWidth 16, sp := m.sp - 2#16
          board := { n.board with mem := t.board.mem, log := t.board.log } })) ∧
    (m.im = .im0 → v = 0xCD#8 → ∀ lo' hi' rest, ops = lo' :: hi' :: rest → ∀ p q, m.gap = .ok p → p.gap = .ok q →
      WritesTwice (fun _ => step s) q (m.sp - 1#16) (hi m.pc) (m.sp - 2#16) (lo m.pc) (fun n t =>
        t = { n with
          pc := hi' ++ lo', sp := m.sp - 2#16
          board := { n.board with mem := t.board.mem, log := t.board.log } })) ∧
    (m.im = .im0 → v = 0xCD#8 → ∀ p, m.gap = .ok p →
      (ops = [] → step s = .refused .mode0CallWithoutOperands) ∧
      ∀ q w, p.gap = .ok q → ops = [w] → step s = .refused .mode0CallWithoutOperands) ∧
    (m.im = .im0 → v &&& 0xC7#8 ≠ 0xC7#8 → v ≠ 0xCD#8 → step s = .refused (.mode0InstructionNotRstOrCall v)) ∧
    (m.im = .im1 →
      WritesTwice (fun _ => step s) m (m.sp - 1#16) (hi m.pc) (m.sp - 2#16) (lo m.pc) (fun n t =>
        t = { n with
          pc := 0x0038#16, sp := m.sp - 2#16, board := { n.board with mem := t.board.mem, log := t.board.log } })) ∧
    (m.im = .im2 → v.getLsbD 0 = false → ∀ p q, m.gap = .ok p → (p.write (m.sp - 1#16) (hi m.pc)).gap = .ok q →
      Stored p (p.write (m.sp - 1#16) (hi m.pc)) (m.sp - 1#16) (hi m.pc) ∧
      Stored q (q.write (m.sp - 2#16) (lo m.pc)) (m.sp - 2#16) (lo m.pc) ∧
      ReadsTwice (fun _ => step s) { q.write (m.sp - 2#16) (lo m.pc) with sp := m.sp - 2#16 } (m.i ++ v)
        ((m.i ++ v) + 1#16) (fun x w t => t = { x with pc := w })) ∧
    (m.im = .im2 → v.getLsbD 0 = true → step s = .refused (.oddMode2Vector v))

/-- What the acknowledge cycle of a step that accepts a maskable interrupt leaves: both flip-flops, the HALT state and `ei_delay`
cleared, R counted once (R434); the vector of the chain's unit that requests, which goes under service (R436, R445, R560). That the
chain's unit answers also where a device of the host's pulls INT at the same boundary is the model's choice (log entry 17). With no
DMA on the board the cycle always completes. -/
def Obligations.MaskableAcceptanceClearsTheEnables : Prop :=
  ∀ s : State, s.arrive.boundary s.input = .int →
    (s.board.dmas = [] → ∃ v ops m, Acknowledges s.arrive.resume s.input.ack v ops m) ∧
    ∀ (m : State) (v : Byte) (ops : List Byte), Acknowledges s.arrive.resume s.input.ack v ops m →
      m = { s.arrive with iff1 := false, iff2 := false, halted := false, eiDelay := false, r := m.r, board := m.board } ∧
      (s.halted = false → m.r = (s.r &&& 0x80#8) ||| ((s.r + 1#8) &&& 0x7F#8)) ∧ m.r &&& 0x80#8 = s.r &&& 0x80#8 ∧
      (∀ u, s.arrive.board.requester = some u → v = s.arrive.board.vector u ∧ ops = s.input.ack ∧
        (s.board.dmas = [] →
          m.board = { s.arrive.board.acknowledge u with log := .intAck v :: s.arrive.board.log })) ∧
      (s.arrive.board.requester = none → ∀ w rest, s.input.ack = w :: rest → v = w ∧ ops = rest ∧
        (s.board.dmas = [] → m.board = { s.arrive.board with log := .intAck v :: s.arrive.board.log }))

/-- A step in the HALT state in which nothing arrives changes R[6:0] alone, and only RESET, an NMI or an accepted INT ends the
state (R402, R452). -/
def Obligations.HaltStateWaitsForAnInterrupt : Prop :=
  (∀ s : State, s.inputs = [] → s.board.dmas = [] → s.halted = true → s.nmiPending = false →
    (s.iff1 = false ∨ s.eiDelay = true ∨ s.board.requester = none) →
    ∃ t, step s = .next t ∧ t = { s with r := t.r, gaps := [], tick := s.tick + 1 } ∧ t.r &&& 0x80#8 = s.r &&& 0x80#8) ∧
  (∀ s t : State, s.halted = true → step s = .next t → t.halted = false →
    s.arrive.boundary s.input = .reset ∨ s.arrive.boundary s.input = .nmi ∨ s.arrive.boundary s.input = .int)

/-- While the bus is granted, to the external master or to a DMA, the CPU keeps all its state (R460). -/
def Obligations.BusGrantLeavesTheCpuAlone : Prop :=
  ∀ s t : State, (s.arrive.boundary s.input = .externalGrant ∨ ∃ n, s.arrive.boundary s.input = .dmaGrant n) →
    step s = .next t → t = { s.arrive with board := t.board }

/-! ## Invariants of every step -/

/-- The invariant of memory and the chips holds after every step from a state in which it holds. -/
def Obligations.EveryStepKeepsTheInvariant : Prop := ∀ s t : State, s.Inv → step s = .next t → t.Inv

/-- The state after reset meets the invariant, and has the values that R47 states. -/
def Obligations.ResetStateMeetsTheInvariant : Prop :=
  State.reset.Inv ∧
  State.reset.pc = 0#16 ∧ State.reset.i = 0#8 ∧ State.reset.r = 0#8 ∧ State.reset.iff1 = false ∧
  State.reset.iff2 = false ∧ State.reset.im = .im0 ∧ State.reset.halted = false ∧ State.reset.eiDelay = false ∧
  State.reset.nmiPending = false

/-- A chip of the platform, in the map or in the boot overlay. -/
def Sys2Proof.Machine.Board.hasRegion (b : Board) (r : Region) : Prop :=
  r ∈ b.memmap ∨ ∃ o, b.overlay = some o ∧ r ∈ o.regions

/-- No step, whoever has the bus, changes a cell that no RAM chip reaches, nor the platform's map but for the boot overlay's switch: ROM
keeps its content (R63, R70, R586). -/
def Obligations.NoStepChangesRom : Prop :=
  ∀ s t : State, step s = .next t →
    (∀ cell, (∀ r, s.board.hasRegion r → (r.kind = .ram ∨ r.kind = .guardedRam) → ∀ a, r.hit a = true → r.cell a ≠ cell) →
      cellRead t.board.mem cell = cellRead s.board.mem cell) ∧
    t.board.memmap = s.board.memmap ∧ t.board.iomap = s.board.iomap ∧ t.board.chain = s.board.chain ∧
    t.board.overlay.map (fun o => { o with active := false }) = s.board.overlay.map (fun o => { o with active := false }) ∧
    ∀ r, t.board.hasRegion r ↔ s.board.hasRegion r

/-- No instruction raises an exception (R420). Where the host lets nothing happen between its machine cycles, an instruction without
I/O cycles completes. -/
def Obligations.NoInstructionFaults : Prop :=
  ∀ (i : Instr) (s : State),
    (∀ f, exec i s ≠ .fault f) ∧ (s.gaps = [] → i.reachesDevices = false → Completes (exec i s))

/-- An instruction that is not listed in table 16, and does not load F as data, leaves all eight bits of F, where no RESET cuts it short
(R37). -/
def Obligations.OtherInstructionsLeaveTheFlags : Prop :=
  ∀ (i : Instr) (s t : State), i.writesFlags = false → (∀ g ∈ s.gaps, g.reset = false) → exec i s = .next t →
    t.regs.f = s.regs.f

/-- EI, and no other instruction, ends with `ei_delay` set (R43), also where a RESET cuts it short. -/
def Obligations.OnlyEiSetsTheDelay : Prop :=
  ∀ (i : Instr) (s t : State), exec i s = .next t → (t.eiDelay = true ↔ i = .ei)

/-- The control registers and latches are written only by their own instructions, where no RESET cuts one short: IFF1 by DI, EI and RETN,
IFF2 by DI and EI (R40), IM by IM 0 to 2 (R41), I by LD I,A (R39), R by LD R,A (R38), the HALT state by HALT (R44), the alternate set
by EX AF,AF' and EXX (R22); the NMI latch by none (R42). -/
def Obligations.ControlStateHasItsOwnInstructions : Prop :=
  ∀ (i : Instr) (s t : State), (∀ g ∈ s.gaps, g.reset = false) → exec i s = .next t →
    (i ≠ .di → i ≠ .ei → t.iff2 = s.iff2 ∧ (i ≠ .retn → t.iff1 = s.iff1)) ∧
    (i ≠ .im0 → i ≠ .im1 → i ≠ .im2 → t.im = s.im) ∧
    (i ≠ .ldIA → t.i = s.i) ∧ (i ≠ .ldRA → t.r = s.r) ∧ (i ≠ .halt → t.halted = s.halted) ∧
    (i ≠ .exAfAf → i ≠ .exx → t.alt = s.alt) ∧
    t.nmiPending = s.nmiPending ∧ t.inputs = s.inputs ∧ t.tick = s.tick

/-- Where nothing happens between its machine cycles: memory is written only by the instructions with a write cycle; the chips and the
I/O space are reached only by those with an I/O cycle and by RETI, and memory-mapped devices only by those with a cycle in memory;
PC is moved only by jumps, calls, returns and repeating block instructions (R63, R61, R62, R330). -/
def Obligations.OtherInstructionsLeaveMemoryDevicesAndPc : Prop :=
  ∀ (i : Instr) (s t : State), s.gaps = [] → exec i s = .next t →
    (i.storesMemory = false → t.board.mem = s.board.mem) ∧
    (i.reachesDevices = false →
      t.board = { s.board with mem := t.board.mem, memIn := t.board.memIn, log := t.board.log }) ∧
    (i.reachesDevices = false → i.usesMemory = false → t.board = s.board) ∧
    (i.movesPc = false → t.pc = s.pc)

/-! ## 8-bit and 16-bit loads -/

/-- The code of a register in an opcode (R23). -/
def Sys2Proof.Machine.registerCode : Reg8 → Nat
  | .b => 0
  | .c => 1
  | .d => 2
  | .e => 3
  | .h => 4
  | .l => 5
  | .a => 7

/-- The code of a register pair dd or ss in an opcode (R24). -/
def Sys2Proof.Machine.pairCode : PairSp → Nat
  | .bc => 0
  | .de => 1
  | .hl => 2
  | .sp => 3

/-- LD r,r' and LD r,n (R130, R131). -/
def Obligations.LoadRegisterFromRegisterOrByte : Prop :=
  ∀ s : State,
    (∀ dst src, ∃ t, exec (.ldRR dst src) s = .next t ∧ LoadsReg s t dst (s.reg8 src)) ∧
    (∀ r n, ∃ t, exec (.ldRN r n) s = .next t ∧ LoadsReg s t r n)

/-- LD r,(HL), LD r,(IX+d), LD r,(IY+d), LD A,(BC), LD A,(DE), LD A,(nn) (R132, R133, R139, R141 to R143), with
their encodings. -/
def Obligations.LoadRegisterFromMemory : Prop :=
  (∀ r d, encode (.ldRHl r) = [BitVec.ofNat 8 (0x46 + 8 * registerCode r)] ∧
    encode (.ldRIx r d) = [0xDD#8, BitVec.ofNat 8 (0x46 + 8 * registerCode r), d] ∧
    encode (.ldRIy r d) = [0xFD#8, BitVec.ofNat 8 (0x46 + 8 * registerCode r), d]) ∧
  (encode .ldABc = [0x0A#8] ∧ encode .ldADe = [0x1A#8] ∧ ∀ nn : Word, encode (.ldAMem nn) = [0x3A#8, lo nn, hi nn]) ∧
  ∀ s : State,
    (∀ r, ReadsOnce (exec (.ldRHl r)) s s.hl (fun x v t => LoadsReg x t r v)) ∧
    (∀ r d, ReadsOnce (exec (.ldRIx r d)) s (s.ix + d.signExtend 16) (fun x v t => LoadsReg x t r v)) ∧
    (∀ r d, ReadsOnce (exec (.ldRIy r d)) s (s.iy + d.signExtend 16) (fun x v t => LoadsReg x t r v)) ∧
    ReadsOnce (exec .ldABc) s s.bc (fun x v t => LoadsReg x t .a v) ∧
    ReadsOnce (exec .ldADe) s s.de (fun x v t => LoadsReg x t .a v) ∧
    (∀ nn, ReadsOnce (exec (.ldAMem nn)) s nn (fun x v t => LoadsReg x t .a v))

/-- The byte stores: LD (HL),r, LD (IX+d),r, LD (IY+d),r, LD (HL),n, LD (IX+d),n, LD (IY+d),n, LD (BC),A, LD (DE),A, LD (nn),A
(R134 to R138, R140, R144 to R146), with their encodings; 76H is HALT. -/
def Obligations.StoreByteToMemory : Prop :=
  (∀ r d n, encode (.ldHlR r) = [BitVec.ofNat 8 (0x70 + registerCode r)] ∧
    encode (.ldIxR d r) = [0xDD#8, BitVec.ofNat 8 (0x70 + registerCode r), d] ∧
    encode (.ldIyR d r) = [0xFD#8, BitVec.ofNat 8 (0x70 + registerCode r), d] ∧
    encode (.ldHlN n) = [0x36#8, n] ∧ encode (.ldIxN d n) = [0xDD#8, 0x36#8, d, n] ∧
    encode (.ldIyN d n) = [0xFD#8, 0x36#8, d, n]) ∧
  (encode .ldBcA = [0x02#8] ∧ encode .ldDeA = [0x12#8] ∧ decode [0x76#8] = .ok (.halt, []) ∧
    ∀ nn : Word, encode (.ldMemA nn) = [0x32#8, lo nn, hi nn]) ∧
  ∀ s : State,
    (∀ r, WritesOnce (exec (.ldHlR r)) s s.hl (s.reg8 r) OnlyMem) ∧
    (∀ d r, WritesOnce (exec (.ldIxR d r)) s (s.ix + d.signExtend 16) (s.reg8 r) OnlyMem) ∧
    (∀ d r, WritesOnce (exec (.ldIyR d r)) s (s.iy + d.signExtend 16) (s.reg8 r) OnlyMem) ∧
    (∀ n, WritesOnce (exec (.ldHlN n)) s s.hl n OnlyMem) ∧
    (∀ d n, WritesOnce (exec (.ldIxN d n)) s (s.ix + d.signExtend 16) n OnlyMem) ∧
    (∀ d n, WritesOnce (exec (.ldIyN d n)) s (s.iy + d.signExtend 16) n OnlyMem) ∧
    WritesOnce (exec .ldBcA) s s.bc s.regs.a OnlyMem ∧
    WritesOnce (exec .ldDeA) s s.de s.regs.a OnlyMem ∧
    (∀ nn, WritesOnce (exec (.ldMemA nn)) s nn s.regs.a OnlyMem)

/-- LD A,I, LD A,R with their flags, and LD I,A, LD R,A (R147 to R150). -/
def Obligations.LoadsOfTheSpecialRegisters : Prop :=
  ∀ s : State,
    (∃ t, exec .ldAI s = .next t ∧ WritesReg s t .a s.i ∧ t.regs.f.s = s.i.msb ∧ t.regs.f.z = (s.i == 0#8) ∧
      t.regs.f.h = false ∧ t.regs.f.n = false ∧ t.regs.f.pv = s.iff2 ∧ t.regs.f.c = s.regs.f.c) ∧
    (∃ t, exec .ldAR s = .next t ∧ WritesReg s t .a s.r ∧ t.regs.f.s = s.r.msb ∧ t.regs.f.z = (s.r == 0#8) ∧
      t.regs.f.h = false ∧ t.regs.f.n = false ∧ t.regs.f.pv = s.iff2 ∧ t.regs.f.c = s.regs.f.c) ∧
    (∃ t, exec .ldIA s = .next t ∧ t = { s with i := s.regs.a, eiDelay := false } ∧ SameMemory s t) ∧
    (∃ t, exec .ldRA s = .next t ∧ t = { s with r := s.regs.a, eiDelay := false } ∧ SameMemory s t)

/-- LD dd,nn, LD IX,nn, LD IY,nn, LD SP,HL, LD SP,IX, LD SP,IY (R160 to R162, R172 to R174), with their
encodings. -/
def Obligations.LoadWordFromImmediateOrRegister : Prop :=
  (∀ dd (nn : Word), encode (.ldDdNn dd nn) = [BitVec.ofNat 8 (0x01 + 16 * pairCode dd), lo nn, hi nn] ∧
    encode (.ldIxNn nn) = [0xDD#8, 0x21#8, lo nn, hi nn] ∧ encode (.ldIyNn nn) = [0xFD#8, 0x21#8, lo nn, hi nn]) ∧
  (encode .ldSpHl = [0xF9#8] ∧ encode .ldSpIx = [0xDD#8, 0xF9#8] ∧ encode .ldSpIy = [0xFD#8, 0xF9#8]) ∧
  ∀ s : State,
    (∀ dd nn, ∃ t, exec (.ldDdNn dd nn) s = .next t ∧ LoadsPair s t dd nn) ∧
    (∀ nn, ∃ t, exec (.ldIxNn nn) s = .next t ∧ t = { s with ix := nn, eiDelay := false } ∧ SameMemory s t) ∧
    (∀ nn, ∃ t, exec (.ldIyNn nn) s = .next t ∧ t = { s with iy := nn, eiDelay := false } ∧ SameMemory s t) ∧
    (∃ t, exec .ldSpHl s = .next t ∧ LoadsPair s t .sp (s.regs.h ++ s.regs.l)) ∧
    (∃ t, exec .ldSpIx s = .next t ∧ LoadsPair s t .sp s.ix) ∧
    (∃ t, exec .ldSpIy s = .next t ∧ LoadsPair s t .sp s.iy)

/-- LD HL,(nn), LD dd,(nn), LD IX,(nn), LD IY,(nn): the low byte from nn, the high byte from nn+1, modulo 65,536 (R163 to
R166), with their encodings. That ED 6B is a second encoding of LD HL,(nn) is marked in R164 as derived by the spec itself, from R99 and
the dd legend (90_conflicts.md C24). -/
def Obligations.LoadWordFromMemory : Prop :=
  (∀ dd (nn : Word), encode (.ldHlMem nn) = [0x2A#8, lo nn, hi nn] ∧
    encode (.ldDdMem dd nn) = [0xED#8, BitVec.ofNat 8 (0x4B + 16 * pairCode dd), lo nn, hi nn] ∧
    encode (.ldIxMem nn) = [0xDD#8, 0x2A#8, lo nn, hi nn] ∧ encode (.ldIyMem nn) = [0xFD#8, 0x2A#8, lo nn, hi nn]) ∧
  ∀ (s : State) (nn : Word),
    ReadsTwice (exec (.ldHlMem nn)) s nn (nn + 1#16) (fun x w t => LoadsPair x t .hl w) ∧
    (∀ dd, ReadsTwice (exec (.ldDdMem dd nn)) s nn (nn + 1#16) (fun x w t => LoadsPair x t dd w)) ∧
    ReadsTwice (exec (.ldIxMem nn)) s nn (nn + 1#16) (fun x w t => t = { x with ix := w, eiDelay := false }) ∧
    ReadsTwice (exec (.ldIyMem nn)) s nn (nn + 1#16) (fun x w t => t = { x with iy := w, eiDelay := false })

/-- LD (nn),HL, LD (nn),dd, LD (nn),IX, LD (nn),IY: the low byte to nn first, then the high byte to nn+1 (R167 to R170), with
their encodings. That ED 63 is a second encoding of LD (nn),HL is marked in R168 as derived by the spec itself, from R99 and the dd
legend (90_conflicts.md C24). -/
def Obligations.StoreWordToMemory : Prop :=
  (∀ dd (nn : Word), encode (.ldMemHl nn) = [0x22#8, lo nn, hi nn] ∧
    encode (.ldMemDd nn dd) = [0xED#8, BitVec.ofNat 8 (0x43 + 16 * pairCode dd), lo nn, hi nn] ∧
    encode (.ldMemIx nn) = [0xDD#8, 0x22#8, lo nn, hi nn] ∧ encode (.ldMemIy nn) = [0xFD#8, 0x22#8, lo nn, hi nn]) ∧
  ∀ (s : State) (nn : Word),
    WritesTwice (exec (.ldMemHl nn)) s nn s.regs.l (nn + 1#16) s.regs.h OnlyMem ∧
    (∀ dd, WritesTwice (exec (.ldMemDd nn dd)) s nn (lo (s.pairSp dd)) (nn + 1#16) (hi (s.pairSp dd)) OnlyMem) ∧
    WritesTwice (exec (.ldMemIx nn)) s nn (lo s.ix) (nn + 1#16) (hi s.ix) OnlyMem ∧
    WritesTwice (exec (.ldMemIy nn)) s nn (lo s.iy) (nn + 1#16) (hi s.iy) OnlyMem

/-- `o` pushes `w` at `s`: the high byte stored first at SP-1, then the low byte at SP-2; SP two lower (R178). -/
def Sys2Proof.Machine.Pushes (o : State → Result) (s : State) (w : Word) : Prop :=
  WritesTwice o s (s.sp - 1#16) (hi w) (s.sp - 2#16) (lo w) (fun n t =>
    t = { n with
      sp := s.sp - 2#16, board := { n.board with mem := t.board.mem, log := t.board.log }, eiDelay := false })

/-- PUSH qq, PUSH IX, PUSH IY (R178 to R180); AF is pushed with all eight bits of F. POP qq, POP IX, POP IY: the low byte from SP, the
high byte from SP+1, SP two higher (R181 to R183). -/
def Obligations.PushAndPopMoveTheWord : Prop :=
  ∀ s : State,
    (∀ qq, Pushes (exec (.pushQq qq)) s (s.pairAf qq)) ∧ Pushes (exec .pushIx) s s.ix ∧ Pushes (exec .pushIy) s s.iy ∧
    (∀ qq, ReadsTwice (exec (.popQq qq)) s s.sp (s.sp + 1#16) (fun x w t =>
      t.pairAf qq = w ∧ (∀ q, q ≠ qq → t.pairAf q = s.pairAf q) ∧ (qq ≠ .af → t.regs.f = s.regs.f) ∧
      t = { x with regs := t.regs, sp := s.sp + 2#16, eiDelay := false })) ∧
    ReadsTwice (exec .popIx) s s.sp (s.sp + 1#16) (fun x w t =>
      t = { x with ix := w, sp := s.sp + 2#16, eiDelay := false }) ∧
    ReadsTwice (exec .popIy) s s.sp (s.sp + 1#16) (fun x w t =>
      t = { x with iy := w, sp := s.sp + 2#16, eiDelay := false })

/-- The word that a PUSH instruction pushes. -/
def Sys2Proof.Machine.State.pushed (s : State) : Instr → Option Word
  | .pushQq qq => some (s.pairAf qq)
  | .pushIx => some s.ix
  | .pushIy => some s.iy
  | _ => none

/-- The word in the register that a POP instruction loads. -/
def Sys2Proof.Machine.State.popped (s : State) : Instr → Option Word
  | .popQq qq => some (s.pairAf qq)
  | .popIx => some s.ix
  | .popIy => some s.iy
  | _ => none

/-- What is pushed is popped again: any PUSH and then any POP copies the word and restores SP, where the two stack addresses are two
cells of RAM and nothing happens between the machine cycles (R178 to R183). -/
def Obligations.PopAfterPushReturnsTheWord : Prop :=
  ∀ (s : State) (i j : Instr) (w : Word), s.gaps = [] →
    s.board.isRam (s.sp - 1#16) → s.board.isRam (s.sp - 2#16) → ¬s.board.sameCell (s.sp - 2#16) (s.sp - 1#16) →
    s.pushed i = some w → (∃ qq, j = .popQq qq) ∨ j = .popIx ∨ j = .popIy →
    ∃ m t, exec i s = .next m ∧ exec j m = .next t ∧ t.popped j = some w ∧ t.sp = s.sp

/-! ## Exchanges -/

/-- `o` exchanges `w` with the word at SP in four machine cycles: the low byte is read at SP, the high byte at SP+1, then the high byte of
`w` is written at SP+1 and its low byte at SP; `post` holds of the state before the last write, the word read and the next state
(R188). -/
def Sys2Proof.Machine.Exchanges (o : State → Result) (s : State) (w : Word) (post : State → Word → State → Prop) : Prop :=
  ∀ m n p q, s.gap = .ok m → (m.memRead s.sp).2.gap = .ok n → (n.memRead (s.sp + 1#16)).2.gap = .ok p →
    (p.write (s.sp + 1#16) (hi w)).gap = .ok q →
    ∃ t, o s = .next t ∧ Stored p (p.write (s.sp + 1#16) (hi w)) (s.sp + 1#16) (hi w) ∧ Stored q t s.sp (lo w) ∧
      (q = p.write (s.sp + 1#16) (hi w) → StoredTwo p t (s.sp + 1#16) (hi w) s.sp (lo w)) ∧
      post q ((n.memRead (s.sp + 1#16)).1 ++ (m.memRead s.sp).1) t

/-- EX DE,HL, EX AF,AF', EXX (R185 to R187), and EX (SP),HL, EX (SP),IX, EX (SP),IY: SP stays (R188 to R190). -/
def Obligations.ExchangeInstructions : Prop :=
  ∀ s : State,
    (∃ t, exec .exDeHl s = .next t ∧ SameMemory s t ∧
      t = { s with
        regs := { s.regs with d := s.regs.h, e := s.regs.l, h := s.regs.d, l := s.regs.e }, eiDelay := false }) ∧
    (∃ t, exec .exAfAf s = .next t ∧ SameMemory s t ∧
      t = { s with
        regs := { s.regs with a := s.alt.a, f := s.alt.f }
        alt := { s.alt with a := s.regs.a, f := s.regs.f }, eiDelay := false }) ∧
    (∃ t, exec .exx s = .next t ∧ SameMemory s t ∧
      t = { s with
        regs := { s.alt with a := s.regs.a, f := s.regs.f }
        alt := { s.regs with a := s.alt.a, f := s.alt.f }, eiDelay := false }) ∧
    Exchanges (exec .exSpHl) s s.hl (fun q w t =>
      t = { q with
        regs := { q.regs with h := hi w, l := lo w }
        board := { q.board with mem := t.board.mem, log := t.board.log }, eiDelay := false }) ∧
    Exchanges (exec .exSpIx) s s.ix (fun q w t =>
      t = { q with ix := w, board := { q.board with mem := t.board.mem, log := t.board.log }, eiDelay := false }) ∧
    Exchanges (exec .exSpIy) s s.iy (fun q w t =>
      t = { q with iy := w, board := { q.board with mem := t.board.mem, log := t.board.log }, eiDelay := false })

/-! ## Block transfer and search -/

/-- What one block transfer leaves (R202 to R205): both pointers stepped by `step`, BC counted down, H and N cleared, P/V telling whether
BC is not zero, C and A kept, PC at `pc`; `p` is the state after its machine cycles. -/
def Sys2Proof.Machine.Transferred (s p t : State) (step : Word) (pc : Word) : Prop :=
  t.hl = s.hl + step ∧ t.de = s.de + step ∧ t.bc = s.bc - 1#16 ∧ t.regs.a = s.regs.a ∧
  t.regs.f.h = false ∧ t.regs.f.n = false ∧ t.regs.f.pv = (s.bc - 1#16 != 0#16) ∧ t.regs.f.c = s.regs.f.c ∧
  t = { p with regs := t.regs, pc := pc, eiDelay := false }

/-- `i` makes one block transfer at `s`: a read cycle at HL, a write cycle that stores the byte at DE, and where it repeats an internal
cycle, after which PC is set back by two (R201 to R205, R210). -/
def Sys2Proof.Machine.Transfers (i : Instr) (s : State) (step : Word) (again : Bool) : Prop :=
  ∀ m n p, s.gap = .ok m → (m.memRead s.hl).2.gap = .ok n →
    Idles (if again then 1 else 0) (n.write s.de (m.memRead s.hl).1) p →
    ∃ t, exec i s = .next t ∧ Stored n (n.write s.de (m.memRead s.hl).1) s.de (m.memRead s.hl).1 ∧
      (p = n.write s.de (m.memRead s.hl).1 → Stored n t s.de (m.memRead s.hl).1) ∧
      Transferred s p t step (if again then s.pc - 2#16 else s.pc)

/-- LDI, LDD and one iteration of LDIR, LDDR, which set PC back by two while BC is not zero: the byte at HL is stored at DE (R201 to
R205, R210). -/
def Obligations.BlockTransferMovesOneByte : Prop :=
  ∀ s : State,
    Transfers .ldi s 1#16 false ∧ Transfers .ldd s 0xFFFF#16 false ∧
    Transfers .ldir s 1#16 (s.bc != 1#16) ∧ Transfers .lddr s 0xFFFF#16 (s.bc != 1#16)

/-- What one block search that finds the byte `v` leaves (R206 to R209): the pointer stepped, BC counted down, Z telling whether A equals
the byte, P/V whether BC is not zero, N set, C kept, PC at `pc`; `p` is the state after its machine cycles. -/
def Sys2Proof.Machine.Searched (s p : State) (v : Byte) (t : State) (step : Word) (pc : Word) : Prop :=
  t.hl = s.hl + step ∧ t.bc = s.bc - 1#16 ∧ t.de = s.de ∧ t.regs.a = s.regs.a ∧
  t.regs.f.z = (s.regs.a == v) ∧ t.regs.f.pv = (s.bc - 1#16 != 0#16) ∧ t.regs.f.n = true ∧
  t.regs.f.c = s.regs.f.c ∧ SameMemory p t ∧
  t = { p with regs := t.regs, pc := pc, eiDelay := false }

/-- `i` makes one block search at `s`: a read cycle at HL and one further cycle without an access; where a form that `repeats` goes on,
because BC is not zero and the byte differs, one more internal cycle, after which PC is set back by two (R206 to R210). -/
def Sys2Proof.Machine.Searches (i : Instr) (s : State) (step : Word) (repeats : Bool) : Prop :=
  ∀ m p, s.gap = .ok m →
    Idles (if repeats = true ∧ s.bc ≠ 1#16 ∧ s.regs.a ≠ (m.memRead s.hl).1 then 2 else 1) (m.memRead s.hl).2 p →
    ∃ t, exec i s = .next t ∧
      Searched s p (m.memRead s.hl).1 t step
        (if repeats = true ∧ s.bc ≠ 1#16 ∧ s.regs.a ≠ (m.memRead s.hl).1 then s.pc - 2#16 else s.pc)

/-- CPI, CPD and one iteration of CPIR, CPDR, which set PC back by two while BC is not zero and the byte differs (R206 to R210). -/
def Obligations.BlockSearchComparesOneByte : Prop :=
  ∀ s : State,
    Searches .cpi s 1#16 false ∧ Searches .cpd s 0xFFFF#16 false ∧
    Searches .cpir s 1#16 true ∧ Searches .cpdr s 0xFFFF#16 true

/-! ## 8-bit arithmetic and logic -/

/-- `t` is `s` with A = `a + v + c` modulo 256 and the flags of that addition (R221, R222). -/
def Sys2Proof.Machine.AddedToA (s t : State) (v : Byte) (c : Nat) : Prop :=
  t.regs.a.toNat = (s.regs.a.toNat + v.toNat + c) % 256 ∧
  t.regs.f.s = t.regs.a.msb ∧ t.regs.f.z = (t.regs.a == 0#8) ∧ t.regs.f.n = false ∧
  t.regs.f.c = decide (255 < s.regs.a.toNat + v.toNat + c) ∧
  t.regs.f.h = decide (15 < s.regs.a.toNat % 16 + v.toNat % 16 + c) ∧
  (t.regs.f.pv = true ↔ s.regs.a.toInt + v.toInt + c < -128 ∨ 127 < s.regs.a.toInt + v.toInt + c) ∧
  (∀ q, q ≠ .a → t.reg8 q = s.reg8 q) ∧ OnlyRegs s t

/-- ADD A,s and ADC A,s in all their forms (R220 to R223). -/
def Obligations.AddAndAddWithCarry : Prop :=
  AccumulatorForms .addAR .addAN .addAHl .addAIx .addAIy (fun s v t => AddedToA s t v 0) ∧
  AccumulatorForms .adcAR .adcAN .adcAHl .adcAIx .adcAIy (fun s v t => AddedToA s t v s.regs.f.c.toNat)

/-- The flags of `a - v - c` with the difference `res` (R221, R224). -/
def Sys2Proof.Machine.SubtractFlags (f : Flags) (a v : Byte) (c : Nat) (res : Byte) : Prop :=
  f.s = res.msb ∧ f.z = (res == 0#8) ∧ f.n = true ∧ f.c = decide (a.toNat < v.toNat + c) ∧
  f.h = decide (a.toNat % 16 < v.toNat % 16 + c) ∧
  (f.pv = true ↔ a.toInt - v.toInt - c < -128 ∨ 127 < a.toInt - v.toInt - c)

/-- SUB s, SBC A,s and CP s in all their forms; CP leaves A, and shows by Z whether A equals the operand and by C whether it is
less (R220, R221, R224, R225, R229). -/
def Obligations.SubtractAndCompare : Prop :=
  AccumulatorForms .subR .subN .subHl .subIx .subIy (fun s v t =>
    t.regs.a = s.regs.a - v ∧ SubtractFlags t.regs.f s.regs.a v 0 t.regs.a ∧
    (∀ q, q ≠ .a → t.reg8 q = s.reg8 q) ∧ OnlyRegs s t) ∧
  AccumulatorForms .sbcAR .sbcAN .sbcAHl .sbcAIx .sbcAIy (fun s v t =>
    t.regs.a = s.regs.a - v - BitVec.ofNat 8 s.regs.f.c.toNat ∧
    SubtractFlags t.regs.f s.regs.a v s.regs.f.c.toNat t.regs.a ∧
    (∀ q, q ≠ .a → t.reg8 q = s.reg8 q) ∧ OnlyRegs s t) ∧
  AccumulatorForms .cpR .cpN .cpHl .cpIx .cpIy (fun s v t =>
    SubtractFlags t.regs.f s.regs.a v 0 (s.regs.a - v) ∧
    (t.regs.f.z = true ↔ s.regs.a = v) ∧ (t.regs.f.c = true ↔ s.regs.a.toNat < v.toNat) ∧
    (∀ q, t.reg8 q = s.reg8 q) ∧ OnlyRegs s t)

/-- The flags of a logical result (R226 to R228): parity counts the 1 bits of the result. -/
def Sys2Proof.Machine.LogicResult (s t : State) (res : Byte) (half : Bool) : Prop :=
  t.regs.a = res ∧ t.regs.f.s = res.msb ∧ t.regs.f.z = (res == 0#8) ∧ t.regs.f.h = half ∧
  t.regs.f.pv = decide ((List.range 8).countP (fun k => res.getLsbD k) % 2 = 0) ∧
  t.regs.f.n = false ∧ t.regs.f.c = false ∧ (∀ q, q ≠ .a → t.reg8 q = s.reg8 q) ∧ OnlyRegs s t

/-- AND s, XOR s, OR s in all their forms (R220, R226 to R228). -/
def Obligations.LogicalOperations : Prop :=
  AccumulatorForms .andR .andN .andHl .andIx .andIy (fun s v t => LogicResult s t (s.regs.a &&& v) true) ∧
  AccumulatorForms .xorR .xorN .xorHl .xorIx .xorIy (fun s v t => LogicResult s t (s.regs.a ^^^ v) false) ∧
  AccumulatorForms .orR .orN .orHl .orIx .orIy (fun s v t => LogicResult s t (s.regs.a ||| v) false)

/-- INC m and DEC m in all their forms: the flags of the addition or subtraction of 1, but C, which is kept (R235 to R243). -/
def Obligations.IncrementAndDecrementOfAByte : Prop :=
  ByteForms .incR .incHl .incIxd .incIyd (fun _ v => v + 1#8) (fun s v t =>
    t.regs.f.s = (v + 1#8).msb ∧ t.regs.f.z = (v == 0xFF#8) ∧ t.regs.f.h = (v.toNat % 16 == 15) ∧
    t.regs.f.pv = (v == 0x7F#8) ∧ t.regs.f.n = false ∧ t.regs.f.c = s.regs.f.c) ∧
  ByteForms .decR .decHl .decIxd .decIyd (fun _ v => v - 1#8) (fun s v t =>
    t.regs.f.s = (v - 1#8).msb ∧ t.regs.f.z = (v == 0x01#8) ∧ t.regs.f.h = (v.toNat % 16 == 0) ∧
    t.regs.f.pv = (v == 0x80#8) ∧ t.regs.f.n = true ∧ t.regs.f.c = s.regs.f.c)

/-- CPL, NEG, CCF, SCF (R248 to R251). -/
def Obligations.AccumulatorAndFlagInstructions : Prop :=
  ∀ s : State,
    (∃ t, exec .cpl s = .next t ∧ WritesReg s t .a (s.regs.a ^^^ 0xFF#8) ∧ t.regs.f.h = true ∧ t.regs.f.n = true ∧
      t.regs.f.s = s.regs.f.s ∧ t.regs.f.z = s.regs.f.z ∧ t.regs.f.pv = s.regs.f.pv ∧ t.regs.f.c = s.regs.f.c) ∧
    (∃ t, exec .neg s = .next t ∧ WritesReg s t .a (-s.regs.a) ∧ t.regs.f.s = (-s.regs.a).msb ∧
      t.regs.f.z = (s.regs.a == 0#8) ∧ t.regs.f.h = (s.regs.a.toNat % 16 != 0) ∧
      t.regs.f.pv = (s.regs.a == 0x80#8) ∧ t.regs.f.n = true ∧ t.regs.f.c = (s.regs.a != 0#8)) ∧
    (∃ t, exec .ccf s = .next t ∧ WritesReg s t .a s.regs.a ∧ t.regs.f.c = !s.regs.f.c ∧ t.regs.f.n = false ∧
      t.regs.f.s = s.regs.f.s ∧ t.regs.f.z = s.regs.f.z ∧ t.regs.f.pv = s.regs.f.pv) ∧
    (∃ t, exec .scf s = .next t ∧ WritesReg s t .a s.regs.a ∧ t.regs.f.c = true ∧ t.regs.f.h = false ∧
      t.regs.f.n = false ∧ t.regs.f.s = s.regs.f.s ∧ t.regs.f.z = s.regs.f.z ∧ t.regs.f.pv = s.regs.f.pv)

/-- The byte is two decimal digits. -/
def Sys2Proof.Machine.isBcd (v : Byte) : Prop := v.toNat / 16 ≤ 9 ∧ v.toNat % 16 ≤ 9

/-- The number that two decimal digits stand for. -/
def Sys2Proof.Machine.bcdValue (v : Byte) : Nat := v.toNat / 16 * 10 + v.toNat % 16

/-- The correction of R247, as a number. -/
def Sys2Proof.Machine.decimalCorrection (f : Flags) (a : Byte) : Nat :=
  (if f.h = true ∨ 9 < a.toNat % 16 then 6 else 0) + (if f.c = true ∨ 0x99 < a.toNat then 0x60 else 0)

/-- DAA completes from every state with the A and the flags of R247's algorithm and changes nothing else. After ADD A,n of two BCD
bytes it gives the decimal sum, with C the decimal carry; after SUB n the decimal difference, with C the decimal borrow. -/
def Obligations.DecimalAdjustGivesTheDecimalResult : Prop :=
  (∀ s : State, ∃ t, exec .daa s = .next t ∧ WritesReg s t .a t.regs.a ∧
    t.regs.a.toNat = (if s.regs.f.n then s.regs.a.toNat + 256 - decimalCorrection s.regs.f s.regs.a
      else s.regs.a.toNat + decimalCorrection s.regs.f s.regs.a) % 256 ∧
    t.regs.f.h = (if s.regs.f.n then decide (s.regs.a.toNat % 16 < decimalCorrection s.regs.f s.regs.a % 16)
      else decide (15 < s.regs.a.toNat % 16 + decimalCorrection s.regs.f s.regs.a % 16)) ∧
    t.regs.f.c = (s.regs.f.c || decide (0x99 < s.regs.a.toNat)) ∧ t.regs.f.n = s.regs.f.n ∧
    t.regs.f.s = t.regs.a.msb ∧ t.regs.f.z = (t.regs.a == 0#8) ∧
    t.regs.f.pv = decide ((List.range 8).countP (fun k => t.regs.a.getLsbD k) % 2 = 0)) ∧
  (∀ (s : State) (n : Byte), isBcd s.regs.a → isBcd n →
    ∃ m t, exec (.addAN n) s = .next m ∧ exec .daa m = .next t ∧ isBcd t.regs.a ∧
      bcdValue t.regs.a + 100 * t.regs.f.c.toNat = bcdValue s.regs.a + bcdValue n) ∧
  (∀ (s : State) (n : Byte), isBcd s.regs.a → isBcd n →
    ∃ m t, exec (.subN n) s = .next m ∧ exec .daa m = .next t ∧ isBcd t.regs.a ∧
      bcdValue t.regs.a + bcdValue n = bcdValue s.regs.a + 100 * t.regs.f.c.toNat)

/-! ## 16-bit arithmetic -/

/-- The flags of a 16-bit ADD: S, Z, P/V kept, N cleared, C the carry out of bit 15 (R260). -/
def Sys2Proof.Machine.WordAddFlags (s t : State) (x y : Word) : Prop :=
  t.regs.f.s = s.regs.f.s ∧ t.regs.f.z = s.regs.f.z ∧ t.regs.f.pv = s.regs.f.pv ∧ t.regs.f.n = false ∧
  t.regs.f.c = decide (65535 < x.toNat + y.toNat)

/-- `t` is `s` with HL replaced by `w`, F free to change. -/
def Sys2Proof.Machine.WritesHl (s t : State) (w : Word) : Prop :=
  t.hl = w ∧ (∀ q, q ≠ .h → q ≠ .l → t.reg8 q = s.reg8 q) ∧ OnlyRegs s t

/-- ADD HL,ss, ADD IX,pp, ADD IY,rr, ADC HL,ss, SBC HL,ss (R260 to R265). -/
def Obligations.SixteenBitAddAndSubtract : Prop :=
  ∀ s : State,
    (∀ ss, ∃ t, exec (.addHlSs ss) s = .next t ∧ WritesHl s t (s.hl + s.pairSp ss) ∧
      WordAddFlags s t s.hl (s.pairSp ss)) ∧
    (∀ pp, ∃ t, exec (.addIxPp pp) s = .next t ∧ WordAddFlags s t s.ix (s.pairIx pp) ∧ SameMemory s t ∧
      t = { s with ix := s.ix + s.pairIx pp, regs := { s.regs with f := t.regs.f }, eiDelay := false }) ∧
    (∀ rr, ∃ t, exec (.addIyRr rr) s = .next t ∧ WordAddFlags s t s.iy (s.pairIy rr) ∧ SameMemory s t ∧
      t = { s with iy := s.iy + s.pairIy rr, regs := { s.regs with f := t.regs.f }, eiDelay := false }) ∧
    (∀ ss, ∃ t, exec (.adcHlSs ss) s = .next t ∧
      WritesHl s t (s.hl + s.pairSp ss + BitVec.ofNat 16 s.regs.f.c.toNat) ∧
      t.regs.f.s = t.hl.msb ∧ t.regs.f.z = (t.hl == 0#16) ∧ t.regs.f.n = false ∧
      t.regs.f.c = decide (65535 < s.hl.toNat + (s.pairSp ss).toNat + s.regs.f.c.toNat) ∧
      (t.regs.f.pv = true ↔ s.hl.toInt + (s.pairSp ss).toInt + s.regs.f.c.toNat < -32768 ∨
        32767 < s.hl.toInt + (s.pairSp ss).toInt + s.regs.f.c.toNat)) ∧
    (∀ ss, ∃ t, exec (.sbcHlSs ss) s = .next t ∧
      WritesHl s t (s.hl - s.pairSp ss - BitVec.ofNat 16 s.regs.f.c.toNat) ∧
      t.regs.f.s = t.hl.msb ∧ t.regs.f.z = (t.hl == 0#16) ∧ t.regs.f.n = true ∧
      t.regs.f.c = decide (s.hl.toNat < (s.pairSp ss).toNat + s.regs.f.c.toNat) ∧
      (t.regs.f.pv = true ↔ s.hl.toInt - (s.pairSp ss).toInt - s.regs.f.c.toNat < -32768 ∨
        32767 < s.hl.toInt - (s.pairSp ss).toInt - s.regs.f.c.toNat))

/-- INC ss, INC IX, INC IY, DEC ss, DEC IX, DEC IY with their encodings; no flag changes (R270 to R275). -/
def Obligations.SixteenBitIncrementAndDecrement : Prop :=
  (∀ ss, encode (.incSs ss) = [BitVec.ofNat 8 (0x03 + 16 * pairCode ss)] ∧
    encode (.decSs ss) = [BitVec.ofNat 8 (0x0B + 16 * pairCode ss)]) ∧
  (encode .incIx = [0xDD#8, 0x23#8] ∧ encode .incIy = [0xFD#8, 0x23#8] ∧ encode .decIx = [0xDD#8, 0x2B#8] ∧
    encode .decIy = [0xFD#8, 0x2B#8]) ∧
  ∀ s : State,
    (∀ ss, ∃ t, exec (.incSs ss) s = .next t ∧ LoadsPair s t ss (s.pairSp ss + 1#16)) ∧
    (∃ t, exec .incIx s = .next t ∧ SameMemory s t ∧ t = { s with ix := s.ix + 1#16, eiDelay := false }) ∧
    (∃ t, exec .incIy s = .next t ∧ SameMemory s t ∧ t = { s with iy := s.iy + 1#16, eiDelay := false }) ∧
    (∀ ss, ∃ t, exec (.decSs ss) s = .next t ∧ LoadsPair s t ss (s.pairSp ss - 1#16)) ∧
    (∃ t, exec .decIx s = .next t ∧ SameMemory s t ∧ t = { s with ix := s.ix - 1#16, eiDelay := false }) ∧
    (∃ t, exec .decIy s = .next t ∧ SameMemory s t ∧ t = { s with iy := s.iy - 1#16, eiDelay := false })

/-! ## Rotates, shifts and bits -/

/-- The flags that the four one-byte rotates of A leave: C the bit shifted out, H and N cleared, S, Z, P/V kept (R280). -/
def Sys2Proof.Machine.RotatedA (s t : State) (res : Byte) (c : Bool) : Prop :=
  WritesReg s t .a res ∧ t.regs.f.c = c ∧ t.regs.f.h = false ∧ t.regs.f.n = false ∧ t.regs.f.s = s.regs.f.s ∧
  t.regs.f.z = s.regs.f.z ∧ t.regs.f.pv = s.regs.f.pv

/-- The flags of a CB-group rotate or shift with the result `res` and the bit `c` shifted out (R295). -/
def Sys2Proof.Machine.RotateFlags (t : State) (res : Byte) (c : Bool) : Prop :=
  t.regs.f.s = res.msb ∧ t.regs.f.z = (res == 0#8) ∧ t.regs.f.h = false ∧ t.regs.f.n = false ∧ t.regs.f.c = c ∧
  t.regs.f.pv = decide ((List.range 8).countP (fun k => res.getLsbD k) % 2 = 0)

/-- RLC, RRC, RL, RR, SLA, SRA, SRL in all their forms (R284 to R290, R295). -/
def Obligations.RotatesAndShifts : Prop :=
  ByteForms .rlcR .rlcHl .rlcIx .rlcIy (fun _ v => v.rotateLeft 1)
    (fun _ v t => RotateFlags t (v.rotateLeft 1) (v.getLsbD 7)) ∧
  ByteForms .rrcR .rrcHl .rrcIx .rrcIy (fun _ v => v.rotateRight 1)
    (fun _ v t => RotateFlags t (v.rotateRight 1) (v.getLsbD 0)) ∧
  ByteForms .rlR .rlHl .rlIx .rlIy (fun s v => BitVec.ofNat 8 (2 * v.toNat + s.regs.f.c.toNat))
    (fun s v t => RotateFlags t (BitVec.ofNat 8 (2 * v.toNat + s.regs.f.c.toNat)) (v.getLsbD 7)) ∧
  ByteForms .rrR .rrHl .rrIx .rrIy (fun s v => BitVec.ofNat 8 (v.toNat / 2 + 128 * s.regs.f.c.toNat))
    (fun s v t => RotateFlags t (BitVec.ofNat 8 (v.toNat / 2 + 128 * s.regs.f.c.toNat)) (v.getLsbD 0)) ∧
  ByteForms .slaR .slaHl .slaIx .slaIy (fun _ v => BitVec.ofNat 8 (2 * v.toNat))
    (fun _ v t => RotateFlags t (BitVec.ofNat 8 (2 * v.toNat)) (v.getLsbD 7)) ∧
  ByteForms .sraR .sraHl .sraIx .sraIy (fun _ v => v.sshiftRight 1)
    (fun _ v t => RotateFlags t (v.sshiftRight 1) (v.getLsbD 0)) ∧
  ByteForms .srlR .srlHl .srlIx .srlIy (fun _ v => BitVec.ofNat 8 (v.toNat / 2))
    (fun _ v t => RotateFlags t (BitVec.ofNat 8 (v.toNat / 2)) (v.getLsbD 0))

/-- `t` is `n` with A = `a` and the flags of A, C kept, but for the stored byte (R291). -/
def Sys2Proof.Machine.DigitsRotated (n t : State) (a : Nat) : Prop :=
  t.regs.a.toNat = a ∧ (∀ q, q ≠ .a → t.reg8 q = n.reg8 q) ∧
  t.regs.f.s = t.regs.a.msb ∧ t.regs.f.z = (t.regs.a == 0#8) ∧ t.regs.f.h = false ∧ t.regs.f.n = false ∧
  t.regs.f.pv = decide ((List.range 8).countP (fun k => t.regs.a.getLsbD k) % 2 = 0) ∧ t.regs.f.c = n.regs.f.c ∧
  t = { n with regs := t.regs, board := { n.board with mem := t.board.mem, log := t.board.log }, eiDelay := false }

/-- RLCA, RRCA, RLA, RRA (R280 to R283), and RLD and RRD in digits (R291, R292). -/
def Obligations.RotatesOfTheAccumulator : Prop :=
  ∀ s : State,
    (∃ t, exec .rlca s = .next t ∧ RotatedA s t (s.regs.a.rotateLeft 1) (s.regs.a.getLsbD 7)) ∧
    (∃ t, exec .rrca s = .next t ∧ RotatedA s t (s.regs.a.rotateRight 1) (s.regs.a.getLsbD 0)) ∧
    (∃ t, exec .rla s = .next t ∧
      RotatedA s t (BitVec.ofNat 8 (2 * s.regs.a.toNat + s.regs.f.c.toNat)) (s.regs.a.getLsbD 7)) ∧
    (∃ t, exec .rra s = .next t ∧
      RotatedA s t (BitVec.ofNat 8 (s.regs.a.toNat / 2 + 128 * s.regs.f.c.toNat)) (s.regs.a.getLsbD 0)) ∧
    ReadsIdlesThenWrites (exec .rld) s s.hl s.hl (fun v => BitVec.ofNat 8 (v.toNat % 16 * 16 + s.regs.a.toNat % 16))
      (fun n v t => DigitsRotated n t (s.regs.a.toNat / 16 * 16 + v.toNat / 16)) ∧
    ReadsIdlesThenWrites (exec .rrd) s s.hl s.hl (fun v => BitVec.ofNat 8 (s.regs.a.toNat % 16 * 16 + v.toNat / 16))
      (fun n v t => DigitsRotated n t (s.regs.a.toNat / 16 * 16 + v.toNat % 16))

/-- `t` shows in Z the complement of a bit, with H set, N cleared and C kept (R321). -/
def Sys2Proof.Machine.BitShown (s t : State) (bit : Bool) : Prop :=
  t.regs.f.z = !bit ∧ t.regs.f.h = true ∧ t.regs.f.n = false ∧ t.regs.f.c = s.regs.f.c ∧
  (∀ q, t.reg8 q = s.reg8 q) ∧ OnlyRegs s t

/-- BIT b,m in all its forms (R310 to R312, R321). -/
def Obligations.BitTestShowsTheComplement : Prop :=
  ∀ (s : State) (b : Nat), b < 8 →
    (∀ r, ∃ t, exec (.bitR b r) s = .next t ∧ BitShown s t ((s.reg8 r).getLsbD b)) ∧
    ReadsOnce (exec (.bitHl b)) s s.hl (fun x v t => BitShown x t (v.getLsbD b)) ∧
    (∀ d, ReadsOnce (exec (.bitIx b d)) s (s.ix + d.signExtend 16) (fun x v t => BitShown x t (v.getLsbD b))) ∧
    (∀ d, ReadsOnce (exec (.bitIy b d)) s (s.iy + d.signExtend 16) (fun x v t => BitShown x t (v.getLsbD b)))

/-- Bit `b` of `w` is `bit`, its other bits are those of `v`. -/
def Sys2Proof.Machine.BitPut (v w : Byte) (b : Nat) (bit : Bool) : Prop :=
  ∀ k, k < 8 → w.getLsbD k = if k = b then bit else v.getLsbD k

/-- SET b,m (`bit` true) and RES b,m (`bit` false) for the four forms given; F does not change (R313 to R318). -/
def Sys2Proof.Machine.PutForms (reg : Nat → Reg8 → Instr) (hl : Nat → Instr) (ix iy : Nat → Byte → Instr)
    (bit : Bool) : Prop :=
  ∀ (s : State) (b : Nat), b < 8 → ∃ put : Byte → Byte, (∀ v, BitPut v (put v) b bit) ∧
    (∀ r, ∃ t, exec (reg b r) s = .next t ∧ LoadsReg s t r (put (s.reg8 r))) ∧
    ReadsThenWrites (exec (hl b)) s s.hl s.hl put (fun n _ t => OnlyMem n t) ∧
    (∀ d, ReadsThenWrites (exec (ix b d)) s (s.ix + d.signExtend 16) (s.ix + d.signExtend 16) put
      (fun n _ t => OnlyMem n t)) ∧
    (∀ d, ReadsThenWrites (exec (iy b d)) s (s.iy + d.signExtend 16) (s.iy + d.signExtend 16) put
      (fun n _ t => OnlyMem n t))

/-- SET and RES change one bit and nothing else (R313 to R318). -/
def Obligations.BitSetAndReset : Prop :=
  PutForms .setR .setHl .setIx .setIy true ∧ PutForms .resR .resHl .resIx .resIy false

/-! ## Jumps, calls, returns -/

/-- The flag test of R331, as its table lists it. -/
def Sys2Proof.Machine.condition (f : Flags) (cc : Cond) : Prop :=
  match cc with
  | .nz => f.z = false
  | .z => f.z = true
  | .nc => f.c = false
  | .c => f.c = true
  | .po => f.pv = false
  | .pe => f.pv = true
  | .p => f.s = false
  | .m => f.s = true

/-- `t` is `s` at the address `pc`. -/
def Sys2Proof.Machine.At (s t : State) (pc : Word) : Prop :=
  t = { s with pc := pc, eiDelay := false } ∧ SameMemory s t

/-- JP nn, JP cc,nn, JP (HL), JP (IX), JP (IY), JR e and its four conditions, DJNZ e (R335 to R345). -/
def Obligations.JumpsGoToTheirTargets : Prop :=
  ∀ s : State,
    (∀ nn, ∃ t, exec (.jpNn nn) s = .next t ∧ At s t nn) ∧
    (∀ cc nn, ∃ t, exec (.jpCcNn cc nn) s = .next t ∧
      (condition s.regs.f cc → At s t nn) ∧ (¬condition s.regs.f cc → At s t s.pc)) ∧
    (∃ t, exec .jpHl s = .next t ∧ At s t (s.regs.h ++ s.regs.l)) ∧
    (∃ t, exec .jpIx s = .next t ∧ At s t s.ix) ∧
    (∃ t, exec .jpIy s = .next t ∧ At s t s.iy) ∧
    (∀ e : Byte,
      (∃ t, exec (.jrE e) s = .next t ∧ At s t (s.pc + e.signExtend 16)) ∧
      (∃ t, exec (.jrNz e) s = .next t ∧ At s t (if s.regs.f.z then s.pc else s.pc + e.signExtend 16)) ∧
      (∃ t, exec (.jrZ e) s = .next t ∧ At s t (if s.regs.f.z then s.pc + e.signExtend 16 else s.pc)) ∧
      (∃ t, exec (.jrNc e) s = .next t ∧ At s t (if s.regs.f.c then s.pc else s.pc + e.signExtend 16)) ∧
      (∃ t, exec (.jrC e) s = .next t ∧ At s t (if s.regs.f.c then s.pc + e.signExtend 16 else s.pc)) ∧
      (∃ t, exec (.djnz e) s = .next t ∧ SameMemory s t ∧
        t = { s with
          regs := { s.regs with b := s.regs.b - 1#8 }
          pc := if s.regs.b = 1#8 then s.pc else s.pc + e.signExtend 16, eiDelay := false }))

/-- `o` calls `target` at `s`: the address after the instruction pushed, PC at the target (R350, R362). -/
def Sys2Proof.Machine.Calls (o : State → Result) (s : State) (target : Word) : Prop :=
  WritesTwice o s (s.sp - 1#16) (hi s.pc) (s.sp - 2#16) (lo s.pc) (fun n t =>
    t = { n with
      pc := target, sp := s.sp - 2#16, board := { n.board with mem := t.board.mem, log := t.board.log }
      eiDelay := false })

/-- CALL nn, CALL cc,nn, RST p for the eight restart addresses (R350, R351, R362). -/
def Obligations.CallsPushTheReturnAddress : Prop :=
  ∀ s : State,
    (∀ nn, Calls (exec (.callNn nn)) s nn) ∧
    (∀ cc nn, (condition s.regs.f cc → Calls (exec (.callCcNn cc nn)) s nn) ∧
      (¬condition s.regs.f cc → ∃ t, exec (.callCcNn cc nn) s = .next t ∧ At s t s.pc)) ∧
    (∀ k, k < 8 → Calls (exec (.rstP (BitVec.ofNat 8 (8 * k)))) s (BitVec.ofNat 16 (8 * k)))

/-- `o` returns at `s`: PC from the stack, low byte at SP, SP two higher (R355). -/
def Sys2Proof.Machine.ReturnsAt (o : State → Result) (s : State) : Prop :=
  ReadsTwice o s s.sp (s.sp + 1#16) (fun x w t => t = { x with pc := w, sp := s.sp + 2#16, eiDelay := false })

/-- RET, RET cc, RETI, RETN (R355 to R358): RETI leaves the flip-flops and tells the chips, before it reads the stack; RETN copies IFF2 to
IFF1. -/
def Obligations.ReturnsPopTheirAddress : Prop :=
  ∀ s : State,
    ReturnsAt (exec .ret) s ∧
    (∀ cc, (condition s.regs.f cc → ReturnsAt (exec (.retCc cc)) s) ∧
      (¬condition s.regs.f cc → ∃ t, exec (.retCc cc) s = .next t ∧ At s t s.pc)) ∧
    ReturnsAt (fun _ => exec .reti s) { s with board := s.board.notifyReti } ∧
    s.board.notifyReti.log = .reti :: s.board.log ∧ s.board.notifyReti.mem = s.board.mem ∧
    ReturnsAt (fun _ => exec .retn s) { s with iff1 := s.iff2 }

/-! ## Input and output -/

/-- IN A,(n) and IN r,(C) (R370, R371) make one I/O read cycle of the stated port, after its gap, and load what it returns; only IN
r,(C) sets flags. -/
def Obligations.InputLoadsThePortByte : Prop :=
  ∀ s m : State, s.gap = .ok m →
    (∀ n, ∃ t, exec (.inAN n) s = .next t ∧ t.regs.a = (m.board.ioRead m.tick (s.regs.a ++ n)).1 ∧
      t.board = (m.board.ioRead m.tick (s.regs.a ++ n)).2 ∧ t.board.mem = m.board.mem ∧
      t = { m with regs := { m.regs with a := t.regs.a }, board := t.board, eiDelay := false } ∧
      (m.board.overlay = none → SameMemory m t)) ∧
    (∀ r, ∃ t v, exec (.inRC r) s = .next t ∧ v = (m.board.ioRead m.tick (s.regs.b ++ s.regs.c)).1 ∧
      t.reg8 r = v ∧ (∀ q, q ≠ r → t.reg8 q = s.reg8 q) ∧
      t.regs.f.s = v.msb ∧ t.regs.f.z = (v == 0#8) ∧ t.regs.f.h = false ∧ t.regs.f.n = false ∧
      t.regs.f.pv = decide ((List.range 8).countP (fun k => v.getLsbD k) % 2 = 0) ∧ t.regs.f.c = s.regs.f.c ∧
      t.board = (m.board.ioRead m.tick (s.regs.b ++ s.regs.c)).2 ∧ t.board.mem = m.board.mem ∧
      t = { m with regs := t.regs, board := t.board, eiDelay := false } ∧
      (m.board.overlay = none → SameMemory m t))

/-- The port does not reach a control word of a PIO, the only words a chip can refuse (R484, R487). -/
def Sys2Proof.Machine.Board.takesAnyByte (b : Board) (port : Word) : Prop :=
  ∀ n portB, b.target port ≠ some (.pio n true portB)

/-- `t` is `s` after one I/O write cycle of `v` to `port`: the log shows it, memory is as it was. -/
def Sys2Proof.Machine.WroteTo (s t : State) (port : Word) (v : Byte) : Prop :=
  s.board.ioWrite s.tick port v = .ok t.board ∧ t.board.log.head? = some (.ioWrite port v) ∧
  t.board.mem = s.board.mem ∧ SameMemory s t

/-- OUT (n),A and OUT (C),r (R375, R376) make one I/O write cycle of the stated port, after its gap, and change nothing else. They
complete wherever the device takes the byte, which every device does but a PIO's control words; where a PIO refuses its word, the
instruction is refused with that reason. -/
def Obligations.OutputWritesThePort : Prop :=
  (∀ (b : Board) (tick : Nat) (port : Word) (v : Byte), b.takesAnyByte port → ∃ b', b.ioWrite tick port v = .ok b') ∧
  ∀ s m : State, s.gap = .ok m →
    (∀ (n : Byte) b, m.board.ioWrite m.tick (s.regs.a ++ n) s.regs.a = .ok b → ∃ t, exec (.outNA n) s = .next t ∧
      WroteTo m t (s.regs.a ++ n) s.regs.a ∧ t = { m with board := b, eiDelay := false }) ∧
    (∀ r b, m.board.ioWrite m.tick (s.regs.b ++ s.regs.c) (s.reg8 r) = .ok b → ∃ t, exec (.outCR r) s = .next t ∧
      WroteTo m t (s.regs.b ++ s.regs.c) (s.reg8 r) ∧ t = { m with board := b, eiDelay := false }) ∧
    (∀ n e, m.board.ioWrite m.tick (s.regs.a ++ n) s.regs.a = .error e → exec (.outNA n) s = .refused e) ∧
    (∀ r e, m.board.ioWrite m.tick (s.regs.b ++ s.regs.c) (s.reg8 r) = .error e → exec (.outCR r) s = .refused e)

/-- What the registers and flags are after a block input or output (R379), PC at `pc`. -/
def Sys2Proof.Machine.BlockIoDone (s t : State) (step : Word) (pc : Word) : Prop :=
  t.hl = s.hl + step ∧ t.regs.b = s.regs.b - 1#8 ∧ (∀ q, q ≠ .b → q ≠ .h → q ≠ .l → t.reg8 q = s.reg8 q) ∧
  t.regs.f.z = (s.regs.b - 1#8 == 0#8) ∧ t.regs.f.n = true ∧ t.pc = pc

/-- `i` makes one block input at `s` (R379 to R383): an I/O read cycle with the port addressed by B before the decrement, a write cycle
that stores the byte at HL, and where it repeats an internal cycle, after which PC is set back by two (R595). -/
def Sys2Proof.Machine.BlockReads (i : Instr) (s : State) (step : Word) (again : Bool) : Prop :=
  ∀ m n p, s.gap = .ok m →
    { m with board := (m.board.ioRead m.tick (s.regs.b ++ s.regs.c)).2 }.gap = .ok n →
    Idles (if again then 1 else 0) (n.write s.hl (m.board.ioRead m.tick (s.regs.b ++ s.regs.c)).1) p →
    ∃ t v, exec i s = .next t ∧ v = (m.board.ioRead m.tick (s.regs.b ++ s.regs.c)).1 ∧ Stored n (n.write s.hl v) s.hl v ∧
      (p = n.write s.hl v → Stored n t s.hl v) ∧
      BlockIoDone s t step (if again then s.pc - 2#16 else s.pc) ∧
      t = { p with regs := t.regs, pc := t.pc, eiDelay := false }

/-- INI, IND and one iteration of INIR, INDR, which set PC back by two while B is not zero (R379 to R383). -/
def Obligations.BlockInputStoresOneByte : Prop :=
  ∀ s : State,
    BlockReads .ini s 1#16 false ∧ BlockReads .ind s 0xFFFF#16 false ∧
    BlockReads .inir s 1#16 (s.regs.b != 1#8) ∧ BlockReads .indr s 0xFFFF#16 (s.regs.b != 1#8)

/-- `i` makes one block output at `s` (R379, R384 to R387): a read cycle at HL, then an I/O write cycle with the port addressed by B
after the decrement, and where it repeats an internal cycle, after which PC is set back by two (R595); `n` is the state before the
write. It completes where the device takes the byte, and is refused where a PIO refuses its word. -/
def Sys2Proof.Machine.BlockWrites (i : Instr) (s : State) (step : Word) (again : Bool) : Prop :=
  ∀ m n, s.gap = .ok m → (m.memRead s.hl).2.gap = .ok n →
    (∀ b p, n.board.ioWrite n.tick ((s.regs.b - 1#8) ++ s.regs.c) (m.memRead s.hl).1 = .ok b →
      Idles (if again then 1 else 0) { n with board := b } p →
      ∃ t, exec i s = .next t ∧ WroteTo n { n with board := b } ((s.regs.b - 1#8) ++ s.regs.c) (m.memRead s.hl).1 ∧
        (p = { n with board := b } → WroteTo n t ((s.regs.b - 1#8) ++ s.regs.c) (m.memRead s.hl).1) ∧
        BlockIoDone s t step (if again then s.pc - 2#16 else s.pc) ∧
        t = { p with regs := t.regs, pc := t.pc, eiDelay := false }) ∧
    ∀ e, n.board.ioWrite n.tick ((s.regs.b - 1#8) ++ s.regs.c) (m.memRead s.hl).1 = .error e → exec i s = .refused e

/-- OUTI, OUTD and one iteration of OTIR, OTDR (R379, R384 to R387), which set PC back by two while B is not zero. -/
def Obligations.BlockOutputWritesOneByte : Prop :=
  ∀ s : State,
    BlockWrites .outi s 1#16 false ∧ BlockWrites .outd s 0xFFFF#16 false ∧
    BlockWrites .otir s 1#16 (s.regs.b != 1#8) ∧ BlockWrites .otdr s 0xFFFF#16 (s.regs.b != 1#8)

/-! ## CPU control -/

/-- NOP, HALT, DI, EI, IM 0, IM 1, IM 2 (R401 to R408). -/
def Obligations.CpuControlInstructions : Prop :=
  ∀ s : State,
    (∃ t, exec .nop s = .next t ∧ t = { s with eiDelay := false } ∧ SameMemory s t) ∧
    (∃ t, exec .halt s = .next t ∧ t = { s with halted := true, eiDelay := false } ∧ SameMemory s t) ∧
    (∃ t, exec .di s = .next t ∧ t = { s with iff1 := false, iff2 := false, eiDelay := false } ∧ SameMemory s t) ∧
    (∃ t, exec .ei s = .next t ∧ t = { s with iff1 := true, iff2 := true, eiDelay := true } ∧ SameMemory s t) ∧
    (∃ t, exec .im0 s = .next t ∧ t = { s with im := .im0, eiDelay := false } ∧ SameMemory s t) ∧
    (∃ t, exec .im1 s = .next t ∧ t = { s with im := .im1, eiDelay := false } ∧ SameMemory s t) ∧
    (∃ t, exec .im2 s = .next t ∧ t = { s with im := .im2, eiDelay := false } ∧ SameMemory s t)

/-! ## The support chips -/

/-- `k` active edges at a counter channel. -/
def Sys2Proof.Machine.CtcChannel.edges (c : CtcChannel) : Nat → CtcChannel
  | 0 => c
  | k + 1 => (CtcChannel.edges c k).edge (c.ctrl.getLsbD 4) |>.1

/-- A CTC channel in counter mode that has just been loaded counts external events: it requests its interrupt at the n-th one, n the
time constant with 0 for 256, and not before, and is then loaded again (R530, R532). -/
def Obligations.CounterInterruptsOnTheNthEvent : Prop :=
  ∀ (c : CtcChannel) (k : Nat),
    c.running = true → c.ctrl.getLsbD 6 = true → c.ctrl.getLsbD 7 = true → c.down = c.tc → c.pending = false →
    let n := if c.tc = 0#8 then 256 else c.tc.toNat
    (k < n → (c.edges k).pending = false ∧ (c.edges k).down = c.tc - BitVec.ofNat 8 k) ∧
    ((c.edges n).pending = true ∧ (c.edges n).down = c.tc)

/-- The priority chain (R445, R560): the unit that is acknowledged requests, is not under service, and has no unit before it in the
chain that requests or is under service; and INT is low for the chain exactly when some unit requests with none under service
before it or at it. -/
def Obligations.ChainAcknowledgesTheFirstRequest : Prop :=
  ∀ (b : Board) (us : List IntUnit),
    (∀ u, b.firstRequest us = some u →
      ∃ before after, us = before ++ u :: after ∧ b.requests u = true ∧ b.underService u = false ∧
        ∀ v ∈ before, b.requests v = false ∧ b.underService v = false) ∧
    (b.firstRequest us = none ↔
      ∀ before u after, us = before ++ u :: after → b.requests u = true →
        b.underService u = true ∨ ∃ v ∈ before, b.underService v = true)

/-- PIO control words (R484, R486 to R491): which word is which, what each writes, and which are refused. A word that is taken ends the
chip's reset state, in which strobes and data writes have no effect and a data read raises no ready (R483); it lowers B RDY where port B
is in mode 3 and does not serve port A in mode 2 (R485). That the mode words 0, 1 and 2 leave ready as it was, that a mode 3 word for port B
lowers B RDY also while port A is in mode 2, and what the reset state holds off are the model's choices (log entry 8); the refusals are
those of log entry 13. -/
def Obligations.PioControlWordsAreToldApart : Prop :=
  (∀ (p : Pio) (portB : Bool) (w : Byte),
    (∀ q, (p.port portB).writeControl portB w = .ok q →
      p.writeControl portB w = .ok
        { a := if portB then p.a else q
          b :=
            let b := if portB then q else p.b
            if b.mode = .bitControl ∧ (if portB then p.a else q).mode ≠ .bidirectional then { b with ready := false } else b
          inReset := false }) ∧
    (∀ e, (p.port portB).writeControl portB w = .error e → p.writeControl portB w = .error e) ∧
    (p.inReset = true → p.strobe portB w = p ∧ p.writeData portB w = p ∧
      ((p.readData portB w).2.a.ready = p.a.ready ∨ p.a.mode = .bidirectional) ∧
      ((p.readData portB w).2.b.ready = p.b.ready ∨ p.a.mode = .bidirectional ∨ p.b.mode = .bidirectional))) ∧
  ∀ (p : PioPort) (portB : Bool) (w : Byte),
    (p.expect = .ioSelect → p.writeControl portB w = .ok { p with ioSelect := w, expect := .nothing }) ∧
    (p.expect = .mask → p.writeControl portB w = .ok { p with mask := w, expect := .nothing }) ∧
    (p.expect = .nothing →
      (w.getLsbD 0 = false → p.writeControl portB w = .ok { p with vector := w }) ∧
      (w.extractLsb' 0 4 = 0x3#4 → p.writeControl portB w = .ok { p with intEnable := w.getLsbD 7 }) ∧
      (w.extractLsb' 0 4 = 0x7#4 → ∃ q, p.writeControl portB w = .ok q ∧ q.intEnable = w.getLsbD 7 ∧
        q.andOr = w.getLsbD 6 ∧ q.highLow = w.getLsbD 5 ∧
        (w.getLsbD 4 = true → q.pending = false ∧ q.expect = .mask) ∧
        (w.getLsbD 4 = false → q.pending = p.pending ∧ q.expect = .nothing) ∧
        q = { p with
          intEnable := q.intEnable, andOr := q.andOr, highLow := q.highLow, pending := q.pending, expect := q.expect }) ∧
      (w.extractLsb' 0 4 = 0xF#4 →
        (w.extractLsb' 6 2 = 0#2 → p.writeControl portB w = .ok { p with mode := .output }) ∧
        (w.extractLsb' 6 2 = 1#2 → p.writeControl portB w = .ok { p with mode := .input }) ∧
        (w.extractLsb' 6 2 = 2#2 → portB = false → p.writeControl portB w = .ok { p with mode := .bidirectional }) ∧
        (w.extractLsb' 6 2 = 2#2 → portB = true → p.writeControl portB w = .error .pioPortBBidirectional) ∧
        (w.extractLsb' 6 2 = 3#2 →
          p.writeControl portB w = .ok { p with mode := .bitControl, ready := false, expect := .ioSelect })) ∧
      (w.extractLsb' 0 4 ∈ [0x1#4, 0x5#4, 0x9#4, 0xB#4, 0xD#4] → p.writeControl portB w = .error (.pioControlWord w)))
end

