-- ==== Sys2Proof/Laws/Memory.lean ====
section
/-! SUPPORT. The laws of memory: read after write, and the canonical form. -/

namespace Sys2Proof.Machine

/-! ## Cells -/

@[simp] theorem cellRead_cellWrite_same (m : Memory) (c : Nat) (v : Byte) : cellRead (cellWrite m c v) c = v := by
  induction m with
  | nil => simp [cellWrite, cellRead]
  | cons x rest ih =>
    obtain ⟨k, w⟩ := x
    unfold cellWrite
    split
    · simp [cellRead]
    · split
      · simp [cellRead]
      · rename_i hne
        exact (if_neg fun e => hne e.symm).trans ih

theorem cellRead_cellWrite_other (m : Memory) (c c' : Nat) (v : Byte) (h : c' ≠ c) :
    cellRead (cellWrite m c v) c' = cellRead m c' := by
  induction m with
  | nil => simp [cellWrite, cellRead, h.symm]
  | cons x rest ih =>
    obtain ⟨k, w⟩ := x
    unfold cellWrite
    split
    · simp [cellRead, h.symm]
    · split
      · rename_i hk
        subst hk
        simp [cellRead, h.symm]
      · simp [cellRead, ih]

/-- The cells of a memory after a write are the written one and those it had. -/
theorem mem_cellWrite (m : Memory) (c : Nat) (v : Byte) (x : Host.Cell) (h : x ∈ cellWrite m c v) : x = (c, v) ∨ x ∈ m := by
  induction m with
  | nil => simpa [cellWrite] using h
  | cons y rest ih =>
    obtain ⟨k, w⟩ := y
    unfold cellWrite at h
    split at h
    · simpa using h
    · split at h
      · rcases List.mem_cons.mp h with h | h
        · exact .inl h
        · exact .inr (List.mem_cons_of_mem _ h)
      · rcases List.mem_cons.mp h with h | h
        · exact .inr (h ▸ List.mem_cons_self)
        · exact (ih h).imp_right (List.mem_cons_of_mem _)

/-- A write keeps the canonical form. -/
theorem cellWrite_wf (m : Memory) (c : Nat) (v : Byte) (h : Memory.wf m) : Memory.wf (cellWrite m c v) := by
  induction m with
  | nil => simp [cellWrite, Memory.wf]
  | cons x rest ih =>
    obtain ⟨k, w⟩ := x
    obtain ⟨hk, hrest⟩ := List.pairwise_cons.mp h
    unfold cellWrite
    split
    · rename_i hc
      refine List.pairwise_cons.mpr ⟨fun y hy => ?_, h⟩
      rcases List.mem_cons.mp hy with rfl | hy
      · exact hc
      · exact Nat.lt_trans hc (hk y hy)
    · split
      · rename_i hc
        subst hc
        exact List.pairwise_cons.mpr ⟨fun y hy => hk y hy, hrest⟩
      · refine List.pairwise_cons.mpr ⟨fun y hy => ?_, ih hrest⟩
        rcases mem_cellWrite _ _ _ _ hy with rfl | hy
        · show k < c
          omega
        · exact hk y hy

/-! ## One byte through the map -/

/-- What a write can do to the board: it changes a cell of RAM, or a memory-mapped device shows it, or it does nothing (R63). -/
theorem Board.poke_cases (b : Board) (a : Word) (v : Byte) :
    (∃ r, b.locate a = some r ∧ b.writes r = true ∧ b.isDevice a = false ∧
      b.poke a v = { b with mem := cellWrite b.mem (r.cell a) v }) ∨
    (¬b.isRam a ∧ b.isDevice a = true ∧ b.poke a v = { b with log := .memWrite a v :: b.log }) ∨
    (¬b.isRam a ∧ b.isDevice a = false ∧ b.poke a v = b) := by
  unfold Board.poke Board.isRam Board.isDevice
  cases hl : b.locate a with
  | none => simp
  | some r =>
    by_cases hw : b.writes r = true
    · refine .inl ⟨r, rfl, hw, ?_, by simp [hw]⟩
      cases hk : r.kind <;> simp_all [Board.writes]
    · by_cases hk : r.kind = .device <;> simp [hw, hk]

theorem Board.poke_eq (b : Board) (a : Word) (v : Byte) : ∃ m l, b.poke a v = { b with mem := m, log := l } := by
  rcases b.poke_cases a v with ⟨r, -, -, -, h⟩ | ⟨-, -, h⟩ | ⟨-, -, h⟩ <;> exact ⟨_, _, h⟩

@[simp] theorem Board.poke_memmap (b : Board) (a : Word) (v : Byte) : (b.poke a v).memmap = b.memmap := by
  obtain ⟨m, l, h⟩ := b.poke_eq a v; rw [h]

@[simp] theorem Board.poke_overlay (b : Board) (a : Word) (v : Byte) : (b.poke a v).overlay = b.overlay := by
  obtain ⟨m, l, h⟩ := b.poke_eq a v; rw [h]

@[simp] theorem Board.poke_ramGuard (b : Board) (a : Word) (v : Byte) : (b.poke a v).ramGuard = b.ramGuard := by
  obtain ⟨m, l, h⟩ := b.poke_eq a v; rw [h]

@[simp] theorem Board.poke_iomap (b : Board) (a : Word) (v : Byte) : (b.poke a v).iomap = b.iomap := by
  obtain ⟨m, l, h⟩ := b.poke_eq a v; rw [h]

@[simp] theorem Board.poke_pios (b : Board) (a : Word) (v : Byte) : (b.poke a v).pios = b.pios := by
  obtain ⟨m, l, h⟩ := b.poke_eq a v; rw [h]

@[simp] theorem Board.poke_sios (b : Board) (a : Word) (v : Byte) : (b.poke a v).sios = b.sios := by
  obtain ⟨m, l, h⟩ := b.poke_eq a v; rw [h]

@[simp] theorem Board.poke_ctcs (b : Board) (a : Word) (v : Byte) : (b.poke a v).ctcs = b.ctcs := by
  obtain ⟨m, l, h⟩ := b.poke_eq a v; rw [h]

@[simp] theorem Board.poke_dmas (b : Board) (a : Word) (v : Byte) : (b.poke a v).dmas = b.dmas := by
  obtain ⟨m, l, h⟩ := b.poke_eq a v; rw [h]

@[simp] theorem Board.poke_chain (b : Board) (a : Word) (v : Byte) : (b.poke a v).chain = b.chain := by
  obtain ⟨m, l, h⟩ := b.poke_eq a v; rw [h]

@[simp] theorem Board.poke_readyWires (b : Board) (a : Word) (v : Byte) : (b.poke a v).readyWires = b.readyWires := by
  obtain ⟨m, l, h⟩ := b.poke_eq a v; rw [h]

@[simp] theorem Board.poke_portIn (b : Board) (a : Word) (v : Byte) : (b.poke a v).portIn = b.portIn := by
  obtain ⟨m, l, h⟩ := b.poke_eq a v; rw [h]

@[simp] theorem Board.poke_memIn (b : Board) (a : Word) (v : Byte) : (b.poke a v).memIn = b.memIn := by
  obtain ⟨m, l, h⟩ := b.poke_eq a v; rw [h]

@[simp] theorem Board.poke_draws (b : Board) (a : Word) (v : Byte) : (b.poke a v).draws = b.draws := by
  obtain ⟨m, l, h⟩ := b.poke_eq a v; rw [h]

/-- A write is shown by a memory-mapped device, and by nothing else (R62, R63). -/
theorem Board.poke_log (b : Board) (a : Word) (v : Byte) :
    (b.poke a v).log = if b.isDevice a then .memWrite a v :: b.log else b.log := by
  rcases b.poke_cases a v with ⟨r, -, -, hd, h⟩ | ⟨-, hd, h⟩ | ⟨-, hd, h⟩ <;> rw [h, hd] <;> rfl

@[simp] theorem Board.locate_poke (b : Board) (a c : Word) (v : Byte) : (b.poke a v).locate c = b.locate c := by
  unfold Board.locate Board.regions
  rw [Board.poke_overlay, Board.poke_memmap]

@[simp] theorem Board.isDevice_poke (b : Board) (a c : Word) (v : Byte) : (b.poke a v).isDevice c = b.isDevice c := by
  unfold Board.isDevice
  rw [Board.locate_poke]

@[simp] theorem Board.isRam_poke (b : Board) (a c : Word) (v : Byte) : (b.poke a v).isRam c ↔ b.isRam c := by
  unfold Board.isRam Board.writes
  rw [Board.locate_poke, Board.poke_ramGuard]

@[simp] theorem Board.sameCell_poke (b : Board) (a c c' : Word) (v : Byte) :
    (b.poke a v).sameCell c c' ↔ b.sameCell c c' := by
  unfold Board.sameCell
  rw [Board.locate_poke, Board.locate_poke]

/-- A write keeps the canonical form of memory. -/
theorem Board.poke_wf (b : Board) (a : Word) (v : Byte) (h : Memory.wf b.mem) : Memory.wf (b.poke a v).mem := by
  rcases b.poke_cases a v with ⟨r, -, -, -, e⟩ | ⟨-, -, e⟩ | ⟨-, -, e⟩ <;> rw [e]
  · exact cellWrite_wf _ _ _ h
  · exact h
  · exact h

/-- RAM is no device. -/
theorem Board.kind_of_writes (b : Board) (r : Region) (hw : b.writes r = true) : r.kind ≠ .device := by
  intro hk
  simp [Board.writes, hk] at hw

/-- Reading back what was written to RAM, at every address of the cell (R62, R70). -/
theorem Board.peek_poke_same (b : Board) (t : Nat) (cy : Cycle) (a a' : Word) (v : Byte) (hr : b.isRam a)
    (hs : b.sameCell a a') : (b.poke a v).peek t cy a' = v := by
  obtain ⟨r, r', h, h', -, hk, hc⟩ := hs
  obtain ⟨q, hq, hw⟩ := hr
  obtain rfl : q = r := Option.some.inj (hq.symm.trans h)
  rcases b.poke_cases a v with ⟨q', hq', -, -, e⟩ | ⟨hn, -, -⟩ | ⟨hn, -, -⟩
  · obtain rfl : q' = q := Option.some.inj (hq'.symm.trans h)
    unfold Board.peek
    rw [Board.locate_poke, h', e]
    simp [← hc, hk]
  · exact absurd ⟨q, hq, hw⟩ hn
  · exact absurd ⟨q, hq, hw⟩ hn

/-- Every other address reads as before (R63). -/
theorem Board.peek_poke_other (b : Board) (t : Nat) (cy : Cycle) (a a' : Word) (v : Byte)
    (h : ¬(b.isRam a ∧ b.sameCell a a')) : (b.poke a v).peek t cy a' = b.peek t cy a' := by
  rcases b.poke_cases a v with ⟨r, hr, hw, -, e⟩ | ⟨-, -, e⟩ | ⟨-, -, e⟩
  · unfold Board.peek
    rw [Board.locate_poke]
    cases h' : b.locate a' with
    | none => rfl
    | some r' =>
      rw [e]
      dsimp only
      split
      · rfl
      · rename_i hk
        exact cellRead_cellWrite_other _ _ _ _ fun hc =>
          h ⟨⟨r, hr, hw⟩, r, r', hr, h', b.kind_of_writes r hw, hk, hc.symm⟩
  · rw [e]; rfl
  · rw [e]

/-- Where RAM answers, no device does. -/
theorem Board.not_isDevice_of_isRam (b : Board) (a : Word) (h : b.isRam a) : b.isDevice a = false := by
  obtain ⟨r, hr, hw⟩ := h
  simpa [Board.isDevice, hr] using b.kind_of_writes r hw

theorem Board.sameCell_refl (b : Board) (a : Word) (h : b.isRam a) : b.sameCell a a := by
  obtain ⟨r, hr, hw⟩ := h
  exact ⟨r, r, hr, hr, b.kind_of_writes r hw, b.kind_of_writes r hw, rfl⟩

/-- What a read of memory can be: a device's answer, which shows the access, or the content with nothing changed (R62, R470). -/
theorem Board.memRead_cases (b : Board) (t : Nat) (cy : Cycle) (a : Word) :
    (b.isDevice a = true ∧ b.memRead t cy a = (b.memIn.headD (Config.openBus t cy a),
      { b with memIn := b.memIn.tail, log := .memRead a (b.memIn.headD (Config.openBus t cy a)) :: b.log })) ∨
    (b.isDevice a = false ∧ b.memRead t cy a = (b.peek t cy a, b)) := by
  unfold Board.memRead
  cases b.isDevice a <;> simp

/-- A read of memory changes at most what the host's devices will answer, and the log. -/
theorem Board.memRead_eq (b : Board) (t : Nat) (cy : Cycle) (a : Word) :
    ∃ i l, (b.memRead t cy a).2 = { b with memIn := i, log := l } := by
  rcases b.memRead_cases t cy a with ⟨-, h⟩ | ⟨-, h⟩ <;> rw [h]
  · exact ⟨_, _, rfl⟩
  · exact ⟨b.memIn, b.log, rfl⟩

/-! ## The state's memory operations -/

@[simp] theorem State.write_read_same (s : State) (a : Word) (v : Byte) (h : s.board.isRam a) : (s.write a v).read a = v :=
  Board.peek_poke_same _ _ _ _ _ _ h (Board.sameCell_refl _ _ h)

theorem State.write_read_other (s : State) (a a' : Word) (v : Byte)
    (h : ¬(s.board.isRam a ∧ s.board.sameCell a a')) : (s.write a v).read a' = s.read a' :=
  Board.peek_poke_other _ _ _ _ _ _ h

/-- A write by the CPU changes memory and the log alone. -/
theorem State.write_eq (s : State) (a : Word) (v : Byte) :
    ∃ m l, s.write a v = { s with board := { s.board with mem := m, log := l } } := by
  obtain ⟨m, l, h⟩ := s.board.poke_eq a v
  exact ⟨m, l, by rw [State.write, h]⟩

/-- A read by the CPU changes at most what the host's devices will answer, and the log. -/
theorem State.memRead_eq (s : State) (a : Word) :
    ∃ i l, (s.memRead a).2 = { s with board := { s.board with memIn := i, log := l } } := by
  obtain ⟨i, l, h⟩ := s.board.memRead_eq s.tick .data a
  exact ⟨i, l, by simp only [State.memRead, h]⟩

/-- Where memory answers, a read returns its content and changes nothing (R62). -/
theorem State.memRead_memory (s : State) (a : Word) (h : s.board.isDevice a = false) : s.memRead a = (s.read a, s) := by
  rcases s.board.memRead_cases s.tick .data a with ⟨hd, -⟩ | ⟨-, e⟩
  · rw [h] at hd; cases hd
  · simp only [State.memRead, State.read, e]

/-- A read changes the content of no address. -/
@[simp] theorem State.memRead_read (s : State) (a a' : Word) : (s.memRead a).2.read a' = s.read a' := by
  obtain ⟨i, l, h⟩ := s.board.memRead_eq s.tick .data a
  simp only [State.read, State.memRead, h]
  rfl

theorem State.write_wf (s : State) (a : Word) (v : Byte) (h : Memory.wf s.board.mem) :
    Memory.wf (s.write a v).board.mem := s.board.poke_wf a v h

theorem State.memRead_wf (s : State) (a : Word) (h : Memory.wf s.board.mem) :
    Memory.wf (s.memRead a).2.board.mem := by
  obtain ⟨i, l, e⟩ := s.memRead_eq a; rw [e]; exact h

/-- The reset memory has the canonical form. -/
theorem reset_memory_wf : Memory.wf State.reset.board.mem := List.Pairwise.nil

end Sys2Proof.Machine
end

