-- ==== Sys2Proof/Laws/Board.lean ====
section
/-! SUPPORT. What I/O cycles, peripherals and bus masters can do to the board, once for each operation: memory, the maps and the
priority chain stay, but for the bytes that a bus master writes to RAM. -/

namespace Sys2Proof.Machine

/-- `b'` has the maps and the chain of `b`; of a boot overlay only its switch may differ. -/
structure Board.KeepsMaps (b b' : Board) : Prop where
  memmap : b'.memmap = b.memmap
  iomap : b'.iomap = b.iomap
  chain : b'.chain = b.chain
  overlay : (b'.overlay.map fun o => { o with active := false }) = b.overlay.map fun o => { o with active := false }

/-- `b'` has the memory content of `b` too. -/
structure Board.KeepsMemory (b b' : Board) : Prop where
  maps : b.KeepsMaps b'
  mem : b'.mem = b.mem

/-- The chips of the memory space, in the map and in the boot overlay. -/
def Board.allRegions (b : Board) : List Region :=
  match b.overlay with
  | some o => o.regions ++ b.memmap
  | none => b.memmap

/-- No RAM of the board reaches the cell. -/
def Board.romCell (b : Board) (cell : Nat) : Prop :=
  ∀ r ∈ b.allRegions, (r.kind = .ram ∨ r.kind = .guardedRam) → ∀ a, r.hit a = true → r.cell a ≠ cell

/-- `b'` has the maps of `b`; memory may differ in cells of RAM, and keeps its canonical form. -/
structure Board.WritesRam (b b' : Board) : Prop where
  maps : b.KeepsMaps b'
  rom : ∀ cell, b.romCell cell → cellRead b'.mem cell = cellRead b.mem cell
  wf : Memory.wf b.mem → Memory.wf b'.mem

theorem Board.KeepsMaps.rfl {b : Board} : b.KeepsMaps b := ⟨Eq.refl _, Eq.refl _, Eq.refl _, Eq.refl _⟩

theorem Board.KeepsMaps.trans {b c d : Board} (h : b.KeepsMaps c) (h' : c.KeepsMaps d) : b.KeepsMaps d :=
  ⟨h'.memmap.trans h.memmap, h'.iomap.trans h.iomap, h'.chain.trans h.chain, h'.overlay.trans h.overlay⟩

/-- Boards with the same maps have the same chips in the memory space. -/
theorem Board.KeepsMaps.allRegions {b c : Board} (h : b.KeepsMaps c) : c.allRegions = b.allRegions := by
  have ho := h.overlay
  unfold Board.allRegions
  rw [h.memmap]
  cases hb : b.overlay <;> cases hc : c.overlay <;> rw [hb, hc] at ho <;> simp at ho ⊢
  exact ho.1

theorem Board.KeepsMemory.rfl {b : Board} : b.KeepsMemory b := ⟨.rfl, Eq.refl _⟩

theorem Board.KeepsMemory.trans {b c d : Board} (h : b.KeepsMemory c) (h' : c.KeepsMemory d) : b.KeepsMemory d :=
  ⟨h.maps.trans h'.maps, h'.mem.trans h.mem⟩

theorem Board.WritesRam.trans {b c d : Board} (h : b.WritesRam c) (h' : c.WritesRam d) : b.WritesRam d :=
  ⟨h.maps.trans h'.maps,
    fun cell hr => (h'.rom cell (by unfold Board.romCell at hr ⊢; rwa [h.maps.allRegions])).trans (h.rom cell hr),
    fun hw => h'.wf (h.wf hw)⟩

theorem Board.KeepsMemory.writesRam {b c : Board} (h : b.KeepsMemory c) : b.WritesRam c :=
  ⟨h.maps, fun _ _ => by rw [h.mem], fun hw => by rw [h.mem]; exact hw⟩

theorem Board.WritesRam.rfl {b : Board} : b.WritesRam b := Board.KeepsMemory.rfl.writesRam

/-- A change of the chips, of what the host's devices will answer, of the log and of the count of free values is no change of
memory or maps. -/
theorem Board.keepsMemory_chips (b : Board) (g : Bool) (ps : List Pio) (ss : List Sio) (cs : List Ctc) (ds : List Dma)
    (pi mi : List Byte) (l : List BusEvent) (k : Nat) :
    b.KeepsMemory { b with
      ramGuard := g, pios := ps, sios := ss, ctcs := cs, dmas := ds, portIn := pi, memIn := mi, log := l, draws := k } :=
  ⟨⟨Eq.refl _, Eq.refl _, Eq.refl _, Eq.refl _⟩, Eq.refl _⟩

/-! ## Memory -/

theorem Board.memRead_keeps (b : Board) (t : Nat) (cy : Cycle) (a : Word) : b.KeepsMemory (b.memRead t cy a).2 := by
  obtain ⟨i, l, h⟩ := b.memRead_eq t cy a
  rw [h]
  exact b.keepsMemory_chips _ _ _ _ _ _ _ _ _

/-- The chip that answers at an address is one of the board's and decodes the address. -/
theorem Board.locate_mem (b : Board) (a : Word) (r : Region) (h : b.locate a = some r) :
    r ∈ b.allRegions ∧ r.hit a = true := by
  have hm := List.mem_of_find?_eq_some h
  refine ⟨?_, List.find?_some (p := fun r : Region => r.hit a) h⟩
  unfold Board.regions at hm
  unfold Board.allRegions
  cases ho : b.overlay with
  | none => simpa [ho] using hm
  | some o =>
    rw [ho] at hm
    dsimp only at hm ⊢
    split at hm
    · exact hm
    · exact List.mem_append_right _ hm

/-- A byte write changes memory at most in a cell of RAM (R63). -/
theorem Board.poke_writesRam (b : Board) (a : Word) (v : Byte) : b.WritesRam (b.poke a v) where
  maps := ⟨b.poke_memmap a v, b.poke_iomap a v, b.poke_chain a v, by rw [b.poke_overlay a v]⟩
  rom cell hc := by
    rcases b.poke_cases a v with ⟨r, hr, hw, -, e⟩ | ⟨-, -, e⟩ | ⟨-, -, e⟩ <;> rw [e]
    refine cellRead_cellWrite_other _ _ _ _ fun hx => ?_
    obtain ⟨hm, hh⟩ := b.locate_mem a r hr
    refine hc r hm ?_ a hh hx.symm
    cases hk : r.kind <;> simp [Board.writes, hk] at hw ⊢
  wf := b.poke_wf a v

/-! ## I/O cycles -/

theorem Board.leaveOverlay_keeps (b : Board) (port : Word) : b.KeepsMemory (b.leaveOverlay port) := by
  unfold Board.leaveOverlay
  split
  · rename_i o h
    split
    · exact ⟨⟨Eq.refl _, Eq.refl _, Eq.refl _, by simp [h]⟩, Eq.refl _⟩
    · exact .rfl
  · exact .rfl

theorem Board.carry_keeps (b : Board) (w : ReadyWire) : b.KeepsMemory (b.carry w) := by
  unfold Board.carry
  split
  · exact .rfl
  · exact b.keepsMemory_chips _ _ _ _ _ _ _ _ _

theorem Board.wireReady_keeps (b : Board) : b.KeepsMemory b.wireReady := by
  unfold Board.wireReady
  generalize b.readyWires = ws
  induction ws generalizing b with
  | nil => exact .rfl
  | cons w ws ih => exact (b.carry_keeps w).trans (ih _)

/-- What a device answers, with its side effects, changes neither memory nor maps. -/
theorem Board.answer_keeps (b : Board) (tick : Nat) (port : Word) : b.KeepsMemory (b.answer tick port).2 := by
  unfold Board.answer
  dsimp only
  split
  · exact .rfl
  · split
    · exact .rfl
    · exact b.keepsMemory_chips _ _ _ _ _ _ _ _ _
  all_goals split
  all_goals first | exact .rfl | exact b.keepsMemory_chips _ _ _ _ _ _ _ _ _ | split
  all_goals first | exact .rfl | exact b.keepsMemory_chips _ _ _ _ _ _ _ _ _

/-- An I/O read cycle changes neither memory nor maps (R66). -/
theorem Board.ioRead_keeps (b : Board) (tick : Nat) (port : Word) : b.KeepsMemory (b.ioRead tick port).2 :=
  ((b.wireReady_keeps.trans (b.wireReady.answer_keeps tick port)).trans (Board.leaveOverlay_keeps _ port)).trans
    (Board.keepsMemory_chips _ _ _ _ _ _ _ _ _ _)

/-- What a write delivers to a device changes neither memory nor maps. -/
theorem Board.deliver_keeps (b b' : Board) (tick : Nat) (port : Word) (v : Byte) (h : b.deliver tick port v = .ok b') :
    b.KeepsMemory b' := by
  unfold Board.deliver at h
  split at h
  · cases h; exact .rfl
  · cases h; exact .rfl
  all_goals split at h
  all_goals try (cases h; first | exact .rfl | exact b.keepsMemory_chips _ _ _ _ _ _ _ _ _)
  · split at h
    · split at h <;> cases h
      exact b.keepsMemory_chips _ _ _ _ _ _ _ _ _
    · cases h; exact b.keepsMemory_chips _ _ _ _ _ _ _ _ _
  · split at h <;> cases h <;> exact b.keepsMemory_chips _ _ _ _ _ _ _ _ _

/-- An I/O write cycle changes neither memory nor maps (R66). -/
theorem Board.ioWrite_keeps (b b' : Board) (tick : Nat) (port : Word) (v : Byte) (h : b.ioWrite tick port v = .ok b') :
    b.KeepsMemory b' := by
  unfold Board.ioWrite at h
  split at h
  · rename_i c hc
    cases h
    exact (b.deliver_keeps c tick port v hc).trans (c.keepsMemory_chips _ _ _ _ _ _ _ _ _)
  · cases h

/-- The log shows an I/O write cycle as its newest entry (R66). -/
theorem Board.ioWrite_log (b b' : Board) (tick : Nat) (port : Word) (v : Byte) (h : b.ioWrite tick port v = .ok b') :
    b'.log.head? = some (.ioWrite port v) := by
  unfold Board.ioWrite at h
  split at h <;> cases h
  exact Eq.refl _

/-! ## The chain -/

theorem Board.acknowledge_keeps (b : Board) (u : IntUnit) : b.KeepsMemory (b.acknowledge u) := by
  cases u <;> exact b.keepsMemory_chips _ _ _ _ _ _ _ _ _

theorem Board.endService_keeps (b : Board) (u : IntUnit) : b.KeepsMemory (b.endService u) := by
  cases u <;> exact b.keepsMemory_chips _ _ _ _ _ _ _ _ _

/-- The RETI notification is logged, and changes neither memory nor maps (R357). -/
theorem Board.notifyReti_keeps (b : Board) : b.KeepsMemory b.notifyReti ∧ b.notifyReti.log = .reti :: b.log := by
  unfold Board.notifyReti
  split
  · rename_i u _
    exact ⟨(b.endService_keeps u).trans (Board.keepsMemory_chips _ _ _ _ _ _ _ _ _ _), by cases u <;> exact Eq.refl _⟩
  · exact ⟨b.keepsMemory_chips _ _ _ _ _ _ _ _ _, Eq.refl _⟩

/-! ## What the peripherals do -/

theorem Board.clockChannel_keeps (b : Board) (n k : Nat) : b.KeepsMemory (b.clockChannel n k) := by
  unfold Board.clockChannel
  split
  · exact .rfl
  · exact b.keepsMemory_chips _ _ _ _ _ _ _ _ _

theorem Board.clockCtc_keeps (b : Board) (n count : Nat) : b.KeepsMemory (b.clockCtc n count) := by
  induction count generalizing b with
  | zero => exact .rfl
  | succ count ih =>
    exact ((((b.clockChannel_keeps n 0).trans (Board.clockChannel_keeps _ n 1)).trans (Board.clockChannel_keeps _ n 2)).trans
      (Board.clockChannel_keeps _ n 3)).trans (ih _)

/-- What a peripheral does to a chip changes neither memory nor maps. -/
theorem Board.chipEvent_keeps (b : Board) (tick : Nat) (e : ChipEvent) : b.KeepsMemory (b.chipEvent tick e) := by
  cases e
  case ctcClocks n count => exact b.clockCtc_keeps n count
  case sioSent n channelB =>
    unfold Board.chipEvent Board.sioSent
    dsimp only
    split
    · exact .rfl
    · split
      · exact .rfl
      · exact b.keepsMemory_chips _ _ _ _ _ _ _ _ _
  case ctcEdge n k rising =>
    unfold Board.chipEvent
    dsimp only
    split
    · exact .rfl
    · exact b.keepsMemory_chips _ _ _ _ _ _ _ _ _
  all_goals exact b.keepsMemory_chips _ _ _ _ _ _ _ _ _

theorem Board.events_keeps (b : Board) (tick : Nat) (es : List ChipEvent) : b.KeepsMemory (b.events tick es) := by
  unfold Board.events
  induction es generalizing b with
  | nil => exact .rfl
  | cons e es ih =>
    exact ((b.chipEvent_keeps tick e).trans (Board.keepsMemory_chips _ _ _ _ _ _ _ _ _ _)).trans (ih _)

/-! ## Bus masters -/

theorem Board.pollDmas_keeps (b : Board) : b.KeepsMemory b.pollDmas :=
  b.wireReady_keeps.trans (Board.keepsMemory_chips _ _ _ _ _ _ _ _ _ _)

theorem Board.resumeDmas_keeps (b : Board) : b.KeepsMemory b.resumeDmas := b.keepsMemory_chips _ _ _ _ _ _ _ _ _

/-- What one byte of a DMA operation does: a read of an I/O port or of memory, then an I/O write, a byte write or neither, then the
chip's own state, the log and the count of free values (R542). -/
theorem Board.dmaByte_cases (b b' : Board) (tick n : Nat) (h : b.dmaByte tick n = .ok b') :
    b' = b ∨ ∃ m w : Board, ((∃ port, m = (b.ioRead tick port).2) ∨ ∃ a, m = (b.memRead tick (.dma b.draws) a).2) ∧
      (w = m ∨ (∃ port v, m.ioWrite tick port v = .ok w) ∨ ∃ a v, w = m.poke a v) ∧
      ∃ v l, b' = { w with dmas := w.dmas.modify n fun d => d.afterByte v, log := l, draws := w.draws + 1 } := by
  unfold Board.dmaByte at h
  split at h
  · cases h; exact .inl (Eq.refl _)
  · rename_i d _
    dsimp only at h
    generalize (if d.aToB then d.portA else d.portB) = source at h
    generalize (if d.aToB then d.portB else d.portA) = target at h
    have hm : (∃ port, (if source.io then b.ioRead tick source.addr
          else b.memRead tick (.dma b.draws) source.addr).2 = (b.ioRead tick port).2) ∨
        ∃ a, (if source.io then b.ioRead tick source.addr
          else b.memRead tick (.dma b.draws) source.addr).2 = (b.memRead tick (.dma b.draws) a).2 := by
      split
      · exact .inl ⟨_, Eq.refl _⟩
      · exact .inr ⟨_, Eq.refl _⟩
    generalize (if source.io then b.ioRead tick source.addr else b.memRead tick (.dma b.draws) source.addr) = r at h hm
    split at h
    · cases h
    · rename_i w hw
      cases h
      refine .inr ⟨r.2, w, hm, ?_, _, _, Eq.refl _⟩
      split at hw
      · split at hw
        · exact .inr (.inl ⟨_, _, hw⟩)
        · cases hw; exact .inr (.inr ⟨_, _, Eq.refl _⟩)
      · cases hw; exact .inl (Eq.refl _)

/-- The parts of a bus release: the log, the external master, the DMA chips, and the end of their pause (R460). -/
theorem Board.release_cases (b b' : Board) (tick : Nat) (g : Gap) (h : b.release tick g = .ok b') :
    ∃ c d e begins resumes, (b.showGrant g.busrq).masterAccesses tick g.master = .ok c ∧
      Board.dmaTurns (fun x => x.busWanted false) tick g.dmaBytes (c.showGrant begins) = .ok d ∧
      Board.dmaTurns Board.busHolder tick (d.dmas.length * 65536) (d.showGrant resumes) = .ok e ∧ b' = e.resumeDmas := by
  unfold Board.release at h
  dsimp only at h
  split at h
  · cases h
  · rename_i c hc
    split at h
    · cases h
    · rename_i d hd
      split at h
      · cases h
      · rename_i e he
        cases h
        exact ⟨c, d, e, _, _, hc, hd, he, Eq.refl _⟩

/-! ## A law of all that happens to a board

A relation between a board and a later one that holds over each elementary operation holds over all that a step can do to it. -/

/-- The elementary operations keep the relation `R`. -/
structure Board.Law (R : Board → Board → Prop) : Prop where
  refl : ∀ b, R b b
  trans : ∀ {b c d}, R b c → R c d → R b d
  memRead : ∀ b t cy a, R b (b.memRead t cy a).2
  poke : ∀ b a v, R b (b.poke a v)
  ioRead : ∀ b t port, R b (b.ioRead t port).2
  ioWrite : ∀ b t port v c, b.ioWrite t port v = .ok c → R b c
  event : ∀ b t e, R b (b.chipEvent t e)
  dmas : ∀ (b : Board) ds l k, R b { b with dmas := ds, log := l, draws := k }
  acknowledge : ∀ b u, R b (b.acknowledge u)
  notifyReti : ∀ b, R b b.notifyReti
  overlay : ∀ b : Board, R b { b with overlay := b.overlay.map fun o => { o with active := true } }

section
variable {R : Board → Board → Prop} (law : Board.Law R)
include law

theorem Board.Law.events (b : Board) (tick : Nat) (es : List ChipEvent) : R b (b.events tick es) := by
  unfold Board.events
  induction es generalizing b with
  | nil => exact law.refl _
  | cons e es ih => exact law.trans (law.trans (law.event b tick e) (law.dmas _ _ _ _)) (ih _)

theorem Board.Law.carry (b : Board) (w : ReadyWire) : R b (b.carry w) := by
  unfold Board.carry
  split
  · exact law.refl _
  · exact law.dmas _ _ _ _

theorem Board.Law.wireReady (b : Board) : R b b.wireReady := by
  unfold Board.wireReady
  generalize b.readyWires = ws
  induction ws generalizing b with
  | nil => exact law.refl _
  | cons w ws ih => exact law.trans (law.carry b w) (ih _)

theorem Board.Law.pollDmas (b : Board) : R b b.pollDmas := law.trans (law.wireReady b) (law.dmas _ _ _ _)

theorem Board.Law.masterAccesses (b c : Board) (tick : Nat) (xs : List MasterAccess) (h : b.masterAccesses tick xs = .ok c) :
    R b c := by
  induction xs generalizing b with
  | nil => cases h; exact law.refl _
  | cons x xs ih =>
    unfold Board.masterAccesses at h
    split at h
    · rename_i b' hb
      refine law.trans ?_ (ih b' h)
      cases x <;> unfold Board.masterAccess at hb
      · cases hb; exact law.trans (law.memRead _ _ _ _) (law.dmas _ _ _ _)
      · cases hb; exact law.poke _ _ _
      · cases hb; exact law.ioRead _ _ _
      · exact law.ioWrite _ _ _ _ _ hb
    · cases h

theorem Board.Law.dmaByte (b c : Board) (tick n : Nat) (h : b.dmaByte tick n = .ok c) : R b c := by
  rcases b.dmaByte_cases c tick n h with rfl | ⟨m, w, hm, hw, v, l, rfl⟩
  · exact law.refl _
  · refine law.trans (c := m) ?_ (law.trans (c := w) ?_ (law.dmas _ _ _ _))
    · rcases hm with ⟨port, rfl⟩ | ⟨a, rfl⟩
      · exact law.ioRead _ _ _
      · exact law.memRead _ _ _ _
    · rcases hw with rfl | ⟨port, v, hw⟩ | ⟨a, v, rfl⟩
      · exact law.refl _
      · exact law.ioWrite _ _ _ _ _ hw
      · exact law.poke _ _ _

theorem Board.Law.dmaTurns (pick : Board → Option Nat) (tick count : Nat) (b c : Board)
    (h : Board.dmaTurns pick tick count b = .ok c) : R b c := by
  induction count generalizing b with
  | zero => cases h; exact law.refl _
  | succ count ih =>
    unfold Board.dmaTurns at h
    split at h
    · cases h; exact law.pollDmas _
    · split at h
      · rename_i b' hb
        exact law.trans (law.trans (law.pollDmas b) (law.dmaByte _ b' tick _ hb)) (ih b' h)
      · cases h

theorem Board.Law.transparentByte (b c : Board) (tick : Nat) (h : b.transparentByte tick = .ok c) : R b c := by
  exact law.dmaTurns _ tick 1 b c h

theorem Board.Law.showGrant (b : Board) (granted : Bool) : R b (b.showGrant granted) := by
  unfold Board.showGrant
  split
  · exact law.dmas b b.dmas _ b.draws
  · exact law.refl _

theorem Board.Law.release (b c : Board) (tick : Nat) (g : Gap) (h : b.release tick g = .ok c) : R b c := by
  obtain ⟨x, d, e, _, _, hx, hd, he, rfl⟩ := b.release_cases c tick g h
  exact law.trans (law.trans (law.showGrant b _) (law.masterAccesses _ x tick _ hx))
    (law.trans (law.trans (law.trans (law.showGrant x _) (law.dmaTurns _ tick _ _ d hd))
      (law.trans (law.showGrant d _) (law.dmaTurns _ tick _ _ e he))) (law.dmas _ _ _ _))

end

/-- Whatever happens to a board, its maps stay, memory changes at most in cells of RAM, and keeps its canonical form. -/
theorem Board.writesRam_law : Board.Law Board.WritesRam where
  refl _ := .rfl
  trans := .trans
  memRead b t cy a := (b.memRead_keeps t cy a).writesRam
  poke b a v := b.poke_writesRam a v
  ioRead b t port := (b.ioRead_keeps t port).writesRam
  ioWrite b t port v c h := (b.ioWrite_keeps c t port v h).writesRam
  event b t e := (b.chipEvent_keeps t e).writesRam
  dmas b _ _ _ := (b.keepsMemory_chips _ _ _ _ _ _ _ _ _).writesRam
  acknowledge b u := (b.acknowledge_keeps u).writesRam
  notifyReti b := b.notifyReti_keeps.1.writesRam
  overlay b := Board.KeepsMemory.writesRam ⟨⟨Eq.refl _, Eq.refl _, Eq.refl _, by cases b.overlay <;> exact Eq.refl _⟩, Eq.refl _⟩

/-! ## Boards without a DMA -/

theorem Board.busHolder_no_dma (b : Board) (h : b.dmas = []) : b.busHolder = none := by
  simp only [Board.busHolder, h, List.findIdx?_nil]

theorem Board.busWanted_no_dma (b : Board) (transparent : Bool) (h : b.dmas = []) : b.busWanted transparent = none := by
  simp [Board.busWanted, b.busHolder_no_dma h, h]

theorem Board.resumeDmas_no_dma (b : Board) (h : b.dmas = []) : b.resumeDmas = b := by
  simp only [Board.resumeDmas, h, List.map_nil]
  rw [← h]

theorem Board.wireReady_no_dma (b : Board) (h : b.dmas = []) : b.wireReady = b := by
  unfold Board.wireReady
  generalize b.readyWires = ws
  have hw : ∀ w, b.carry w = b := fun w => by
    unfold Board.carry
    split
    · rfl
    · simp only [h, List.modify_nil]
      rw [← h]
  induction ws with
  | nil => rfl
  | cons w ws ih => rw [List.foldl_cons, hw]; exact ih

theorem Board.pollDmas_no_dma (b : Board) (h : b.dmas = []) : b.pollDmas = b := by
  simp only [Board.pollDmas, b.wireReady_no_dma h, h, List.map_nil]
  rw [← h]

theorem Board.transparentByte_no_dma (b : Board) (tick : Nat) (h : b.dmas = []) : b.transparentByte tick = .ok b := by
  simp only [Board.transparentByte, Board.dmaTurns, b.pollDmas_no_dma h, b.busWanted_no_dma true h]

@[simp] theorem Board.showGrant_false (b : Board) : b.showGrant false = b := rfl

/-- With no DMA on the board a gap grants the bus to the external master alone (R460). -/
theorem Board.release_no_dma (b c : Board) (tick : Nat) (g : Gap)
    (h : (b.showGrant g.busrq).masterAccesses tick g.master = .ok c) (hc : c.dmas = []) : b.release tick g = .ok c := by
  have turns : Board.dmaTurns (fun x => x.busWanted false) tick g.dmaBytes c = .ok c := by
    cases g.dmaBytes with
    | zero => rfl
    | succ n => simp only [Board.dmaTurns, c.pollDmas_no_dma hc, c.busWanted_no_dma false hc]
  simp only [Board.release, h, c.pollDmas_no_dma hc, c.busWanted_no_dma false hc, Option.isSome_none, Bool.and_false, c.showGrant_false,
    turns, c.busHolder_no_dma hc, hc, List.length_nil, Nat.zero_mul, Board.dmaTurns, c.resumeDmas_no_dma hc]

end Sys2Proof.Machine
end

