-- ==== Sys2Proof/Laws/Decode.lean ====
section
/-! SUPPORT. The decoder on longer bytes: what it reads from some bytes it reads from them with more bytes after, so that a fetch
byte by byte comes to the same instruction. -/

namespace Sys2Proof
open Machine

/-- What a decoder says of bytes it says of them with `more` after: the instruction is the same, the bytes after it are longer by
`more`, and bytes for which nothing is defined stay so. -/
def Stable (d : List Byte → Except DecodeError (Instr × List Byte)) : Prop :=
  ∀ bytes more,
    (∀ i rest, d bytes = .ok (i, rest) → d (bytes ++ more) = .ok (i, rest ++ more)) ∧
    (∀ bad, d bytes = .error (.unspecified bad) → d (bytes ++ more) = .error (.unspecified bad))

theorem Plan.finish_stable (p : Plan) (got : List Byte) : Stable (p.finish got) := by
  intro bytes more
  cases p with
  | undefined => exact ⟨fun _ _ h => (nomatch h), fun _ h => h⟩
  | fixed i => exact ⟨fun _ _ h => by cases h; rfl, fun _ h => (nomatch h)⟩
  | byte f =>
    cases bytes with
    | nil => exact ⟨fun _ _ h => (nomatch h), fun _ h => (nomatch h)⟩
    | cons n r => exact ⟨fun _ _ h => by cases h; rfl, fun _ h => (nomatch h)⟩
  | word f =>
    match bytes with
    | [] => exact ⟨fun _ _ h => (nomatch h), fun _ h => (nomatch h)⟩
    | [_] => exact ⟨fun _ _ h => (nomatch h), fun _ h => (nomatch h)⟩
    | _ :: _ :: _ => exact ⟨fun _ _ h => by cases h; rfl, fun _ h => (nomatch h)⟩
  | twoBytes f =>
    match bytes with
    | [] => exact ⟨fun _ _ h => (nomatch h), fun _ h => (nomatch h)⟩
    | [_] => exact ⟨fun _ _ h => (nomatch h), fun _ h => (nomatch h)⟩
    | _ :: _ :: _ => exact ⟨fun _ _ h => by cases h; rfl, fun _ h => (nomatch h)⟩

theorem decodeSecond_stable (plan : Byte → Plan) (first : Byte) : Stable (decodeSecond plan first) := by
  intro bytes more
  cases bytes with
  | nil => exact ⟨fun _ _ h => (nomatch h), fun _ h => (nomatch h)⟩
  | cons op rest => exact (plan op).finish_stable _ rest more

theorem decodeIndexed_stable (plan : Byte → Plan) (planCb : Byte → Byte → Plan) (first : Byte) :
    Stable (decodeIndexed plan planCb first) := by
  intro bytes more
  cases bytes with
  | nil => exact ⟨fun _ _ h => (nomatch h), fun _ h => (nomatch h)⟩
  | cons op rest =>
    by_cases hc : op = 0xCB#8
    · simp only [List.cons_append, decodeIndexed, if_pos hc]
      match rest with
      | [] => exact ⟨fun _ _ h => (nomatch h), fun _ h => (nomatch h)⟩
      | [_] => exact ⟨fun _ _ h => (nomatch h), fun _ h => (nomatch h)⟩
      | d :: op :: rest' => exact (planCb d op).finish_stable _ rest' more
    · simp only [List.cons_append, decodeIndexed, if_neg hc]
      exact (plan op).finish_stable _ rest more

/-- What a decoder shows as undefined is the start of the bytes it was given, with the opcode bytes `got` before them, and is enough to
show it. -/
def ShowsPrefix (d : List Byte → Except DecodeError (Instr × List Byte)) (got : List Byte) : Prop :=
  ∀ bytes bad, d bytes = .error (.unspecified bad) →
    ∃ front, bad = got ++ front ∧ front <+: bytes ∧ d front = .error (.unspecified bad)

theorem Plan.finish_shows (p : Plan) (got : List Byte) : ShowsPrefix (p.finish got) got := by
  intro bytes bad h
  unfold Plan.finish at h
  split at h <;> cases h
  exact ⟨[], by simp, List.nil_prefix, rfl⟩

theorem decodeSecond_shows (plan : Byte → Plan) (first : Byte) : ShowsPrefix (decodeSecond plan first) [first] := by
  intro bytes bad h
  cases bytes with
  | nil => cases h
  | cons op rest =>
    obtain ⟨front, hb, hp, hf⟩ := (plan op).finish_shows _ rest bad h
    exact ⟨op :: front, by rw [hb]; rfl, (List.prefix_cons_inj op).mpr hp, hf⟩

theorem decodeIndexed_shows (plan : Byte → Plan) (planCb : Byte → Byte → Plan) (first : Byte) :
    ShowsPrefix (decodeIndexed plan planCb first) [first] := by
  intro bytes bad h
  cases bytes with
  | nil => cases h
  | cons op rest =>
    by_cases hc : op = 0xCB#8
    · subst hc
      match rest, h with
      | d :: op :: rest', h =>
        obtain ⟨front, hb, hp, hf⟩ := (planCb d op).finish_shows _ rest' bad h
        exact ⟨0xCB#8 :: d :: op :: front, by rw [hb]; rfl,
          (List.prefix_cons_inj _).mpr ((List.prefix_cons_inj d).mpr ((List.prefix_cons_inj op).mpr hp)), hf⟩
    · simp only [decodeIndexed, if_neg hc] at h
      obtain ⟨front, hb, hp, hf⟩ := (plan op).finish_shows _ rest bad h
      exact ⟨op :: front, by rw [hb]; rfl, (List.prefix_cons_inj op).mpr hp, by simp only [decodeIndexed, if_neg hc]; exact hf⟩

/-- After its first byte the decoder goes on with a decoder that is stable and shows what is undefined. -/
theorem decode_cons (op : Byte) : ∃ d, Stable d ∧ ShowsPrefix d [op] ∧ ∀ rest, decode (op :: rest) = d rest := by
  by_cases h₁ : op = 0xCB#8
  · exact ⟨_, decodeSecond_stable planCb op, decodeSecond_shows planCb op, fun _ => if_pos h₁⟩
  by_cases h₂ : op = 0xED#8
  · exact ⟨_, decodeSecond_stable planEd op, decodeSecond_shows planEd op, fun _ => (if_neg h₁).trans (if_pos h₂)⟩
  by_cases h₃ : op = 0xDD#8
  · exact ⟨_, decodeIndexed_stable planIx planIxCb op, decodeIndexed_shows planIx planIxCb op,
      fun _ => (if_neg h₁).trans ((if_neg h₂).trans (if_pos h₃))⟩
  by_cases h₄ : op = 0xFD#8
  · exact ⟨_, decodeIndexed_stable planIy planIyCb op, decodeIndexed_shows planIy planIyCb op,
      fun _ => (if_neg h₁).trans ((if_neg h₂).trans ((if_neg h₃).trans (if_pos h₄)))⟩
  · exact ⟨_, (planMain op).finish_stable [op], (planMain op).finish_shows [op],
      fun _ => (if_neg h₁).trans ((if_neg h₂).trans ((if_neg h₃).trans (if_neg h₄)))⟩

/-- The decoder's answer stays when more bytes follow. -/
theorem decode_stable : Stable decode := by
  intro bytes more
  cases bytes with
  | nil => exact ⟨fun _ _ h => (nomatch h), fun _ h => (nomatch h)⟩
  | cons op rest =>
    obtain ⟨d, hd, -, e⟩ := decode_cons op
    rw [List.cons_append, e, e]
    exact hd rest more

/-- The bytes that the decoder shows as undefined are the first of those it was given, and are enough to show it (R118). -/
theorem decode_unspecified (bytes bad : List Byte) (h : decode bytes = .error (.unspecified bad)) :
    bad <+: bytes ∧ decode bad = .error (.unspecified bad) := by
  cases bytes with
  | nil => cases h
  | cons op rest =>
    obtain ⟨d, -, hs, e⟩ := decode_cons op
    rw [e] at h
    obtain ⟨front, hb, hp, hf⟩ := hs rest bad h
    rw [hb]
    exact ⟨(List.prefix_cons_inj op).mpr hp, (e front).trans (by rw [hf, hb])⟩

/-- Fewer bytes than an instruction has, or than show that nothing is defined, are too few: the fetch goes on (R92). -/
theorem decode_proper_prefix (bytes more : List Byte) (hm : more ≠ []) :
    (∀ i, decode (bytes ++ more) = .ok (i, []) → ∃ got, decode bytes = .error (.truncated got)) ∧
    (decode (bytes ++ more) = .error (.unspecified (bytes ++ more)) → ∃ got, decode bytes = .error (.truncated got)) := by
  obtain ⟨hok, hbad⟩ := decode_stable bytes more
  cases h : decode bytes with
  | ok p =>
    have := hok p.1 p.2 h
    refine ⟨fun i hi => ?_, fun hi => ?_⟩ <;> rw [this] at hi
    · injection hi with hi
      injection hi with _ hr
      exact absurd (List.append_eq_nil_iff.mp hr).2 hm
    · cases hi
  | error e =>
    cases e with
    | truncated got => exact ⟨fun _ _ => ⟨got, rfl⟩, fun _ => ⟨got, rfl⟩⟩
    | unspecified bad =>
      have := hbad bad h
      refine ⟨fun i hi => ?_, fun hi => ?_⟩ <;> rw [this] at hi
      · cases hi
      · injection hi with hi
        injection hi with hi
        have hl := (decode_unspecified bytes bad h).1.length_le
        rw [hi, List.length_append] at hl
        have := List.length_pos_iff.mpr hm
        omega

end Sys2Proof
end

