-- ==== Sys2Proof/Laws/State.lean ====
section
/-! SUPPORT. One lemma for each field and each update of the state, so that no proof unfolds a record update. -/

namespace Sys2Proof.Machine

/-! ## setF -/

@[simp] theorem State.setF_alt (s : State) (f : Flags) : (s.setF f).alt = s.alt := rfl
@[simp] theorem State.setF_ix (s : State) (f : Flags) : (s.setF f).ix = s.ix := rfl
@[simp] theorem State.setF_iy (s : State) (f : Flags) : (s.setF f).iy = s.iy := rfl
@[simp] theorem State.setF_sp (s : State) (f : Flags) : (s.setF f).sp = s.sp := rfl
@[simp] theorem State.setF_pc (s : State) (f : Flags) : (s.setF f).pc = s.pc := rfl
@[simp] theorem State.setF_i (s : State) (f : Flags) : (s.setF f).i = s.i := rfl
@[simp] theorem State.setF_r (s : State) (f : Flags) : (s.setF f).r = s.r := rfl
@[simp] theorem State.setF_iff1 (s : State) (f : Flags) : (s.setF f).iff1 = s.iff1 := rfl
@[simp] theorem State.setF_iff2 (s : State) (f : Flags) : (s.setF f).iff2 = s.iff2 := rfl
@[simp] theorem State.setF_im (s : State) (f : Flags) : (s.setF f).im = s.im := rfl
@[simp] theorem State.setF_nmiPending (s : State) (f : Flags) : (s.setF f).nmiPending = s.nmiPending := rfl
@[simp] theorem State.setF_eiDelay (s : State) (f : Flags) : (s.setF f).eiDelay = s.eiDelay := rfl
@[simp] theorem State.setF_halted (s : State) (f : Flags) : (s.setF f).halted = s.halted := rfl
@[simp] theorem State.setF_board (s : State) (f : Flags) : (s.setF f).board = s.board := rfl
@[simp] theorem State.setF_inputs (s : State) (f : Flags) : (s.setF f).inputs = s.inputs := rfl
@[simp] theorem State.setF_gaps (s : State) (f : Flags) : (s.setF f).gaps = s.gaps := rfl
@[simp] theorem State.setF_tick (s : State) (f : Flags) : (s.setF f).tick = s.tick := rfl

/-! ## setAF -/

@[simp] theorem State.setAF_alt (s : State) (p : Byte × Flags) : (s.setAF p).alt = s.alt := rfl
@[simp] theorem State.setAF_ix (s : State) (p : Byte × Flags) : (s.setAF p).ix = s.ix := rfl
@[simp] theorem State.setAF_iy (s : State) (p : Byte × Flags) : (s.setAF p).iy = s.iy := rfl
@[simp] theorem State.setAF_sp (s : State) (p : Byte × Flags) : (s.setAF p).sp = s.sp := rfl
@[simp] theorem State.setAF_pc (s : State) (p : Byte × Flags) : (s.setAF p).pc = s.pc := rfl
@[simp] theorem State.setAF_i (s : State) (p : Byte × Flags) : (s.setAF p).i = s.i := rfl
@[simp] theorem State.setAF_r (s : State) (p : Byte × Flags) : (s.setAF p).r = s.r := rfl
@[simp] theorem State.setAF_iff1 (s : State) (p : Byte × Flags) : (s.setAF p).iff1 = s.iff1 := rfl
@[simp] theorem State.setAF_iff2 (s : State) (p : Byte × Flags) : (s.setAF p).iff2 = s.iff2 := rfl
@[simp] theorem State.setAF_im (s : State) (p : Byte × Flags) : (s.setAF p).im = s.im := rfl
@[simp] theorem State.setAF_nmiPending (s : State) (p : Byte × Flags) : (s.setAF p).nmiPending = s.nmiPending := rfl
@[simp] theorem State.setAF_eiDelay (s : State) (p : Byte × Flags) : (s.setAF p).eiDelay = s.eiDelay := rfl
@[simp] theorem State.setAF_halted (s : State) (p : Byte × Flags) : (s.setAF p).halted = s.halted := rfl
@[simp] theorem State.setAF_board (s : State) (p : Byte × Flags) : (s.setAF p).board = s.board := rfl
@[simp] theorem State.setAF_inputs (s : State) (p : Byte × Flags) : (s.setAF p).inputs = s.inputs := rfl
@[simp] theorem State.setAF_gaps (s : State) (p : Byte × Flags) : (s.setAF p).gaps = s.gaps := rfl
@[simp] theorem State.setAF_tick (s : State) (p : Byte × Flags) : (s.setAF p).tick = s.tick := rfl

/-! ## setBC -/

@[simp] theorem State.setBC_alt (s : State) (w : Word) : (s.setBC w).alt = s.alt := rfl
@[simp] theorem State.setBC_ix (s : State) (w : Word) : (s.setBC w).ix = s.ix := rfl
@[simp] theorem State.setBC_iy (s : State) (w : Word) : (s.setBC w).iy = s.iy := rfl
@[simp] theorem State.setBC_sp (s : State) (w : Word) : (s.setBC w).sp = s.sp := rfl
@[simp] theorem State.setBC_pc (s : State) (w : Word) : (s.setBC w).pc = s.pc := rfl
@[simp] theorem State.setBC_i (s : State) (w : Word) : (s.setBC w).i = s.i := rfl
@[simp] theorem State.setBC_r (s : State) (w : Word) : (s.setBC w).r = s.r := rfl
@[simp] theorem State.setBC_iff1 (s : State) (w : Word) : (s.setBC w).iff1 = s.iff1 := rfl
@[simp] theorem State.setBC_iff2 (s : State) (w : Word) : (s.setBC w).iff2 = s.iff2 := rfl
@[simp] theorem State.setBC_im (s : State) (w : Word) : (s.setBC w).im = s.im := rfl
@[simp] theorem State.setBC_nmiPending (s : State) (w : Word) : (s.setBC w).nmiPending = s.nmiPending := rfl
@[simp] theorem State.setBC_eiDelay (s : State) (w : Word) : (s.setBC w).eiDelay = s.eiDelay := rfl
@[simp] theorem State.setBC_halted (s : State) (w : Word) : (s.setBC w).halted = s.halted := rfl
@[simp] theorem State.setBC_board (s : State) (w : Word) : (s.setBC w).board = s.board := rfl
@[simp] theorem State.setBC_inputs (s : State) (w : Word) : (s.setBC w).inputs = s.inputs := rfl
@[simp] theorem State.setBC_gaps (s : State) (w : Word) : (s.setBC w).gaps = s.gaps := rfl
@[simp] theorem State.setBC_tick (s : State) (w : Word) : (s.setBC w).tick = s.tick := rfl

/-! ## setDE -/

@[simp] theorem State.setDE_alt (s : State) (w : Word) : (s.setDE w).alt = s.alt := rfl
@[simp] theorem State.setDE_ix (s : State) (w : Word) : (s.setDE w).ix = s.ix := rfl
@[simp] theorem State.setDE_iy (s : State) (w : Word) : (s.setDE w).iy = s.iy := rfl
@[simp] theorem State.setDE_sp (s : State) (w : Word) : (s.setDE w).sp = s.sp := rfl
@[simp] theorem State.setDE_pc (s : State) (w : Word) : (s.setDE w).pc = s.pc := rfl
@[simp] theorem State.setDE_i (s : State) (w : Word) : (s.setDE w).i = s.i := rfl
@[simp] theorem State.setDE_r (s : State) (w : Word) : (s.setDE w).r = s.r := rfl
@[simp] theorem State.setDE_iff1 (s : State) (w : Word) : (s.setDE w).iff1 = s.iff1 := rfl
@[simp] theorem State.setDE_iff2 (s : State) (w : Word) : (s.setDE w).iff2 = s.iff2 := rfl
@[simp] theorem State.setDE_im (s : State) (w : Word) : (s.setDE w).im = s.im := rfl
@[simp] theorem State.setDE_nmiPending (s : State) (w : Word) : (s.setDE w).nmiPending = s.nmiPending := rfl
@[simp] theorem State.setDE_eiDelay (s : State) (w : Word) : (s.setDE w).eiDelay = s.eiDelay := rfl
@[simp] theorem State.setDE_halted (s : State) (w : Word) : (s.setDE w).halted = s.halted := rfl
@[simp] theorem State.setDE_board (s : State) (w : Word) : (s.setDE w).board = s.board := rfl
@[simp] theorem State.setDE_inputs (s : State) (w : Word) : (s.setDE w).inputs = s.inputs := rfl
@[simp] theorem State.setDE_gaps (s : State) (w : Word) : (s.setDE w).gaps = s.gaps := rfl
@[simp] theorem State.setDE_tick (s : State) (w : Word) : (s.setDE w).tick = s.tick := rfl

/-! ## setHL -/

@[simp] theorem State.setHL_alt (s : State) (w : Word) : (s.setHL w).alt = s.alt := rfl
@[simp] theorem State.setHL_ix (s : State) (w : Word) : (s.setHL w).ix = s.ix := rfl
@[simp] theorem State.setHL_iy (s : State) (w : Word) : (s.setHL w).iy = s.iy := rfl
@[simp] theorem State.setHL_sp (s : State) (w : Word) : (s.setHL w).sp = s.sp := rfl
@[simp] theorem State.setHL_pc (s : State) (w : Word) : (s.setHL w).pc = s.pc := rfl
@[simp] theorem State.setHL_i (s : State) (w : Word) : (s.setHL w).i = s.i := rfl
@[simp] theorem State.setHL_r (s : State) (w : Word) : (s.setHL w).r = s.r := rfl
@[simp] theorem State.setHL_iff1 (s : State) (w : Word) : (s.setHL w).iff1 = s.iff1 := rfl
@[simp] theorem State.setHL_iff2 (s : State) (w : Word) : (s.setHL w).iff2 = s.iff2 := rfl
@[simp] theorem State.setHL_im (s : State) (w : Word) : (s.setHL w).im = s.im := rfl
@[simp] theorem State.setHL_nmiPending (s : State) (w : Word) : (s.setHL w).nmiPending = s.nmiPending := rfl
@[simp] theorem State.setHL_eiDelay (s : State) (w : Word) : (s.setHL w).eiDelay = s.eiDelay := rfl
@[simp] theorem State.setHL_halted (s : State) (w : Word) : (s.setHL w).halted = s.halted := rfl
@[simp] theorem State.setHL_board (s : State) (w : Word) : (s.setHL w).board = s.board := rfl
@[simp] theorem State.setHL_inputs (s : State) (w : Word) : (s.setHL w).inputs = s.inputs := rfl
@[simp] theorem State.setHL_gaps (s : State) (w : Word) : (s.setHL w).gaps = s.gaps := rfl
@[simp] theorem State.setHL_tick (s : State) (w : Word) : (s.setHL w).tick = s.tick := rfl

/-! ## setAFWord -/

@[simp] theorem State.setAFWord_alt (s : State) (w : Word) : (s.setAFWord w).alt = s.alt := rfl
@[simp] theorem State.setAFWord_ix (s : State) (w : Word) : (s.setAFWord w).ix = s.ix := rfl
@[simp] theorem State.setAFWord_iy (s : State) (w : Word) : (s.setAFWord w).iy = s.iy := rfl
@[simp] theorem State.setAFWord_sp (s : State) (w : Word) : (s.setAFWord w).sp = s.sp := rfl
@[simp] theorem State.setAFWord_pc (s : State) (w : Word) : (s.setAFWord w).pc = s.pc := rfl
@[simp] theorem State.setAFWord_i (s : State) (w : Word) : (s.setAFWord w).i = s.i := rfl
@[simp] theorem State.setAFWord_r (s : State) (w : Word) : (s.setAFWord w).r = s.r := rfl
@[simp] theorem State.setAFWord_iff1 (s : State) (w : Word) : (s.setAFWord w).iff1 = s.iff1 := rfl
@[simp] theorem State.setAFWord_iff2 (s : State) (w : Word) : (s.setAFWord w).iff2 = s.iff2 := rfl
@[simp] theorem State.setAFWord_im (s : State) (w : Word) : (s.setAFWord w).im = s.im := rfl
@[simp] theorem State.setAFWord_nmiPending (s : State) (w : Word) : (s.setAFWord w).nmiPending = s.nmiPending := rfl
@[simp] theorem State.setAFWord_eiDelay (s : State) (w : Word) : (s.setAFWord w).eiDelay = s.eiDelay := rfl
@[simp] theorem State.setAFWord_halted (s : State) (w : Word) : (s.setAFWord w).halted = s.halted := rfl
@[simp] theorem State.setAFWord_board (s : State) (w : Word) : (s.setAFWord w).board = s.board := rfl
@[simp] theorem State.setAFWord_inputs (s : State) (w : Word) : (s.setAFWord w).inputs = s.inputs := rfl
@[simp] theorem State.setAFWord_gaps (s : State) (w : Word) : (s.setAFWord w).gaps = s.gaps := rfl
@[simp] theorem State.setAFWord_tick (s : State) (w : Word) : (s.setAFWord w).tick = s.tick := rfl

/-! ## setReg8 -/

@[simp] theorem State.setReg8_alt (s : State) (r : Reg8) (v : Byte) : (s.setReg8 r v).alt = s.alt := by cases r <;> rfl
@[simp] theorem State.setReg8_ix (s : State) (r : Reg8) (v : Byte) : (s.setReg8 r v).ix = s.ix := by cases r <;> rfl
@[simp] theorem State.setReg8_iy (s : State) (r : Reg8) (v : Byte) : (s.setReg8 r v).iy = s.iy := by cases r <;> rfl
@[simp] theorem State.setReg8_sp (s : State) (r : Reg8) (v : Byte) : (s.setReg8 r v).sp = s.sp := by cases r <;> rfl
@[simp] theorem State.setReg8_pc (s : State) (r : Reg8) (v : Byte) : (s.setReg8 r v).pc = s.pc := by cases r <;> rfl
@[simp] theorem State.setReg8_i (s : State) (r : Reg8) (v : Byte) : (s.setReg8 r v).i = s.i := by cases r <;> rfl
@[simp] theorem State.setReg8_r (s : State) (r : Reg8) (v : Byte) : (s.setReg8 r v).r = s.r := by cases r <;> rfl
@[simp] theorem State.setReg8_iff1 (s : State) (r : Reg8) (v : Byte) : (s.setReg8 r v).iff1 = s.iff1 := by cases r <;> rfl
@[simp] theorem State.setReg8_iff2 (s : State) (r : Reg8) (v : Byte) : (s.setReg8 r v).iff2 = s.iff2 := by cases r <;> rfl
@[simp] theorem State.setReg8_im (s : State) (r : Reg8) (v : Byte) : (s.setReg8 r v).im = s.im := by cases r <;> rfl
@[simp] theorem State.setReg8_nmiPending (s : State) (r : Reg8) (v : Byte) : (s.setReg8 r v).nmiPending = s.nmiPending := by cases r <;> rfl
@[simp] theorem State.setReg8_eiDelay (s : State) (r : Reg8) (v : Byte) : (s.setReg8 r v).eiDelay = s.eiDelay := by cases r <;> rfl
@[simp] theorem State.setReg8_halted (s : State) (r : Reg8) (v : Byte) : (s.setReg8 r v).halted = s.halted := by cases r <;> rfl
@[simp] theorem State.setReg8_board (s : State) (r : Reg8) (v : Byte) : (s.setReg8 r v).board = s.board := by cases r <;> rfl
@[simp] theorem State.setReg8_inputs (s : State) (r : Reg8) (v : Byte) : (s.setReg8 r v).inputs = s.inputs := by cases r <;> rfl
@[simp] theorem State.setReg8_gaps (s : State) (r : Reg8) (v : Byte) : (s.setReg8 r v).gaps = s.gaps := by cases r <;> rfl
@[simp] theorem State.setReg8_tick (s : State) (r : Reg8) (v : Byte) : (s.setReg8 r v).tick = s.tick := by cases r <;> rfl

/-! ## setPairSp -/

@[simp] theorem State.setPairSp_alt (s : State) (p : PairSp) (w : Word) : (s.setPairSp p w).alt = s.alt := by cases p <;> rfl
@[simp] theorem State.setPairSp_ix (s : State) (p : PairSp) (w : Word) : (s.setPairSp p w).ix = s.ix := by cases p <;> rfl
@[simp] theorem State.setPairSp_iy (s : State) (p : PairSp) (w : Word) : (s.setPairSp p w).iy = s.iy := by cases p <;> rfl
@[simp] theorem State.setPairSp_pc (s : State) (p : PairSp) (w : Word) : (s.setPairSp p w).pc = s.pc := by cases p <;> rfl
@[simp] theorem State.setPairSp_i (s : State) (p : PairSp) (w : Word) : (s.setPairSp p w).i = s.i := by cases p <;> rfl
@[simp] theorem State.setPairSp_r (s : State) (p : PairSp) (w : Word) : (s.setPairSp p w).r = s.r := by cases p <;> rfl
@[simp] theorem State.setPairSp_iff1 (s : State) (p : PairSp) (w : Word) : (s.setPairSp p w).iff1 = s.iff1 := by cases p <;> rfl
@[simp] theorem State.setPairSp_iff2 (s : State) (p : PairSp) (w : Word) : (s.setPairSp p w).iff2 = s.iff2 := by cases p <;> rfl
@[simp] theorem State.setPairSp_im (s : State) (p : PairSp) (w : Word) : (s.setPairSp p w).im = s.im := by cases p <;> rfl
@[simp] theorem State.setPairSp_nmiPending (s : State) (p : PairSp) (w : Word) : (s.setPairSp p w).nmiPending = s.nmiPending := by cases p <;> rfl
@[simp] theorem State.setPairSp_eiDelay (s : State) (p : PairSp) (w : Word) : (s.setPairSp p w).eiDelay = s.eiDelay := by cases p <;> rfl
@[simp] theorem State.setPairSp_halted (s : State) (p : PairSp) (w : Word) : (s.setPairSp p w).halted = s.halted := by cases p <;> rfl
@[simp] theorem State.setPairSp_board (s : State) (p : PairSp) (w : Word) : (s.setPairSp p w).board = s.board := by cases p <;> rfl
@[simp] theorem State.setPairSp_inputs (s : State) (p : PairSp) (w : Word) : (s.setPairSp p w).inputs = s.inputs := by cases p <;> rfl
@[simp] theorem State.setPairSp_gaps (s : State) (p : PairSp) (w : Word) : (s.setPairSp p w).gaps = s.gaps := by cases p <;> rfl
@[simp] theorem State.setPairSp_tick (s : State) (p : PairSp) (w : Word) : (s.setPairSp p w).tick = s.tick := by cases p <;> rfl

/-! ## setPairAf -/

@[simp] theorem State.setPairAf_alt (s : State) (p : PairAf) (w : Word) : (s.setPairAf p w).alt = s.alt := by cases p <;> rfl
@[simp] theorem State.setPairAf_ix (s : State) (p : PairAf) (w : Word) : (s.setPairAf p w).ix = s.ix := by cases p <;> rfl
@[simp] theorem State.setPairAf_iy (s : State) (p : PairAf) (w : Word) : (s.setPairAf p w).iy = s.iy := by cases p <;> rfl
@[simp] theorem State.setPairAf_sp (s : State) (p : PairAf) (w : Word) : (s.setPairAf p w).sp = s.sp := by cases p <;> rfl
@[simp] theorem State.setPairAf_pc (s : State) (p : PairAf) (w : Word) : (s.setPairAf p w).pc = s.pc := by cases p <;> rfl
@[simp] theorem State.setPairAf_i (s : State) (p : PairAf) (w : Word) : (s.setPairAf p w).i = s.i := by cases p <;> rfl
@[simp] theorem State.setPairAf_r (s : State) (p : PairAf) (w : Word) : (s.setPairAf p w).r = s.r := by cases p <;> rfl
@[simp] theorem State.setPairAf_iff1 (s : State) (p : PairAf) (w : Word) : (s.setPairAf p w).iff1 = s.iff1 := by cases p <;> rfl
@[simp] theorem State.setPairAf_iff2 (s : State) (p : PairAf) (w : Word) : (s.setPairAf p w).iff2 = s.iff2 := by cases p <;> rfl
@[simp] theorem State.setPairAf_im (s : State) (p : PairAf) (w : Word) : (s.setPairAf p w).im = s.im := by cases p <;> rfl
@[simp] theorem State.setPairAf_nmiPending (s : State) (p : PairAf) (w : Word) : (s.setPairAf p w).nmiPending = s.nmiPending := by cases p <;> rfl
@[simp] theorem State.setPairAf_eiDelay (s : State) (p : PairAf) (w : Word) : (s.setPairAf p w).eiDelay = s.eiDelay := by cases p <;> rfl
@[simp] theorem State.setPairAf_halted (s : State) (p : PairAf) (w : Word) : (s.setPairAf p w).halted = s.halted := by cases p <;> rfl
@[simp] theorem State.setPairAf_board (s : State) (p : PairAf) (w : Word) : (s.setPairAf p w).board = s.board := by cases p <;> rfl
@[simp] theorem State.setPairAf_inputs (s : State) (p : PairAf) (w : Word) : (s.setPairAf p w).inputs = s.inputs := by cases p <;> rfl
@[simp] theorem State.setPairAf_gaps (s : State) (p : PairAf) (w : Word) : (s.setPairAf p w).gaps = s.gaps := by cases p <;> rfl
@[simp] theorem State.setPairAf_tick (s : State) (p : PairAf) (w : Word) : (s.setPairAf p w).tick = s.tick := by cases p <;> rfl

/-! ## write -/

@[simp] theorem State.write_regs (s : State) (a : Word) (v : Byte) : (s.write a v).regs = s.regs := rfl
@[simp] theorem State.write_alt (s : State) (a : Word) (v : Byte) : (s.write a v).alt = s.alt := rfl
@[simp] theorem State.write_ix (s : State) (a : Word) (v : Byte) : (s.write a v).ix = s.ix := rfl
@[simp] theorem State.write_iy (s : State) (a : Word) (v : Byte) : (s.write a v).iy = s.iy := rfl
@[simp] theorem State.write_sp (s : State) (a : Word) (v : Byte) : (s.write a v).sp = s.sp := rfl
@[simp] theorem State.write_pc (s : State) (a : Word) (v : Byte) : (s.write a v).pc = s.pc := rfl
@[simp] theorem State.write_i (s : State) (a : Word) (v : Byte) : (s.write a v).i = s.i := rfl
@[simp] theorem State.write_r (s : State) (a : Word) (v : Byte) : (s.write a v).r = s.r := rfl
@[simp] theorem State.write_iff1 (s : State) (a : Word) (v : Byte) : (s.write a v).iff1 = s.iff1 := rfl
@[simp] theorem State.write_iff2 (s : State) (a : Word) (v : Byte) : (s.write a v).iff2 = s.iff2 := rfl
@[simp] theorem State.write_im (s : State) (a : Word) (v : Byte) : (s.write a v).im = s.im := rfl
@[simp] theorem State.write_nmiPending (s : State) (a : Word) (v : Byte) : (s.write a v).nmiPending = s.nmiPending := rfl
@[simp] theorem State.write_eiDelay (s : State) (a : Word) (v : Byte) : (s.write a v).eiDelay = s.eiDelay := rfl
@[simp] theorem State.write_halted (s : State) (a : Word) (v : Byte) : (s.write a v).halted = s.halted := rfl
@[simp] theorem State.write_inputs (s : State) (a : Word) (v : Byte) : (s.write a v).inputs = s.inputs := rfl
@[simp] theorem State.write_gaps (s : State) (a : Word) (v : Byte) : (s.write a v).gaps = s.gaps := rfl
@[simp] theorem State.write_tick (s : State) (a : Word) (v : Byte) : (s.write a v).tick = s.tick := rfl

/-! ## memRead -/

@[simp] theorem State.memRead_regs (s : State) (a : Word) : ((s.memRead a).2).regs = s.regs := rfl
@[simp] theorem State.memRead_alt (s : State) (a : Word) : ((s.memRead a).2).alt = s.alt := rfl
@[simp] theorem State.memRead_ix (s : State) (a : Word) : ((s.memRead a).2).ix = s.ix := rfl
@[simp] theorem State.memRead_iy (s : State) (a : Word) : ((s.memRead a).2).iy = s.iy := rfl
@[simp] theorem State.memRead_sp (s : State) (a : Word) : ((s.memRead a).2).sp = s.sp := rfl
@[simp] theorem State.memRead_pc (s : State) (a : Word) : ((s.memRead a).2).pc = s.pc := rfl
@[simp] theorem State.memRead_i (s : State) (a : Word) : ((s.memRead a).2).i = s.i := rfl
@[simp] theorem State.memRead_r (s : State) (a : Word) : ((s.memRead a).2).r = s.r := rfl
@[simp] theorem State.memRead_iff1 (s : State) (a : Word) : ((s.memRead a).2).iff1 = s.iff1 := rfl
@[simp] theorem State.memRead_iff2 (s : State) (a : Word) : ((s.memRead a).2).iff2 = s.iff2 := rfl
@[simp] theorem State.memRead_im (s : State) (a : Word) : ((s.memRead a).2).im = s.im := rfl
@[simp] theorem State.memRead_nmiPending (s : State) (a : Word) : ((s.memRead a).2).nmiPending = s.nmiPending := rfl
@[simp] theorem State.memRead_eiDelay (s : State) (a : Word) : ((s.memRead a).2).eiDelay = s.eiDelay := rfl
@[simp] theorem State.memRead_halted (s : State) (a : Word) : ((s.memRead a).2).halted = s.halted := rfl
@[simp] theorem State.memRead_inputs (s : State) (a : Word) : ((s.memRead a).2).inputs = s.inputs := rfl
@[simp] theorem State.memRead_gaps (s : State) (a : Word) : ((s.memRead a).2).gaps = s.gaps := rfl
@[simp] theorem State.memRead_tick (s : State) (a : Word) : ((s.memRead a).2).tick = s.tick := rfl

/-! ## jump -/

@[simp] theorem State.jump_regs (s : State) (a : Word) : (s.jump a).regs = s.regs := rfl
@[simp] theorem State.jump_alt (s : State) (a : Word) : (s.jump a).alt = s.alt := rfl
@[simp] theorem State.jump_ix (s : State) (a : Word) : (s.jump a).ix = s.ix := rfl
@[simp] theorem State.jump_iy (s : State) (a : Word) : (s.jump a).iy = s.iy := rfl
@[simp] theorem State.jump_sp (s : State) (a : Word) : (s.jump a).sp = s.sp := rfl
@[simp] theorem State.jump_i (s : State) (a : Word) : (s.jump a).i = s.i := rfl
@[simp] theorem State.jump_r (s : State) (a : Word) : (s.jump a).r = s.r := rfl
@[simp] theorem State.jump_iff1 (s : State) (a : Word) : (s.jump a).iff1 = s.iff1 := rfl
@[simp] theorem State.jump_iff2 (s : State) (a : Word) : (s.jump a).iff2 = s.iff2 := rfl
@[simp] theorem State.jump_im (s : State) (a : Word) : (s.jump a).im = s.im := rfl
@[simp] theorem State.jump_nmiPending (s : State) (a : Word) : (s.jump a).nmiPending = s.nmiPending := rfl
@[simp] theorem State.jump_eiDelay (s : State) (a : Word) : (s.jump a).eiDelay = s.eiDelay := rfl
@[simp] theorem State.jump_halted (s : State) (a : Word) : (s.jump a).halted = s.halted := rfl
@[simp] theorem State.jump_board (s : State) (a : Word) : (s.jump a).board = s.board := rfl
@[simp] theorem State.jump_inputs (s : State) (a : Word) : (s.jump a).inputs = s.inputs := rfl
@[simp] theorem State.jump_gaps (s : State) (a : Word) : (s.jump a).gaps = s.gaps := rfl
@[simp] theorem State.jump_tick (s : State) (a : Word) : (s.jump a).tick = s.tick := rfl

/-! ## jumpIf -/

@[simp] theorem State.jumpIf_regs (s : State) (c : Bool) (a : Word) : (s.jumpIf c a).regs = s.regs := by cases c <;> rfl
@[simp] theorem State.jumpIf_alt (s : State) (c : Bool) (a : Word) : (s.jumpIf c a).alt = s.alt := by cases c <;> rfl
@[simp] theorem State.jumpIf_ix (s : State) (c : Bool) (a : Word) : (s.jumpIf c a).ix = s.ix := by cases c <;> rfl
@[simp] theorem State.jumpIf_iy (s : State) (c : Bool) (a : Word) : (s.jumpIf c a).iy = s.iy := by cases c <;> rfl
@[simp] theorem State.jumpIf_sp (s : State) (c : Bool) (a : Word) : (s.jumpIf c a).sp = s.sp := by cases c <;> rfl
@[simp] theorem State.jumpIf_i (s : State) (c : Bool) (a : Word) : (s.jumpIf c a).i = s.i := by cases c <;> rfl
@[simp] theorem State.jumpIf_r (s : State) (c : Bool) (a : Word) : (s.jumpIf c a).r = s.r := by cases c <;> rfl
@[simp] theorem State.jumpIf_iff1 (s : State) (c : Bool) (a : Word) : (s.jumpIf c a).iff1 = s.iff1 := by cases c <;> rfl
@[simp] theorem State.jumpIf_iff2 (s : State) (c : Bool) (a : Word) : (s.jumpIf c a).iff2 = s.iff2 := by cases c <;> rfl
@[simp] theorem State.jumpIf_im (s : State) (c : Bool) (a : Word) : (s.jumpIf c a).im = s.im := by cases c <;> rfl
@[simp] theorem State.jumpIf_nmiPending (s : State) (c : Bool) (a : Word) : (s.jumpIf c a).nmiPending = s.nmiPending := by cases c <;> rfl
@[simp] theorem State.jumpIf_eiDelay (s : State) (c : Bool) (a : Word) : (s.jumpIf c a).eiDelay = s.eiDelay := by cases c <;> rfl
@[simp] theorem State.jumpIf_halted (s : State) (c : Bool) (a : Word) : (s.jumpIf c a).halted = s.halted := by cases c <;> rfl
@[simp] theorem State.jumpIf_board (s : State) (c : Bool) (a : Word) : (s.jumpIf c a).board = s.board := by cases c <;> rfl
@[simp] theorem State.jumpIf_inputs (s : State) (c : Bool) (a : Word) : (s.jumpIf c a).inputs = s.inputs := by cases c <;> rfl
@[simp] theorem State.jumpIf_gaps (s : State) (c : Bool) (a : Word) : (s.jumpIf c a).gaps = s.gaps := by cases c <;> rfl
@[simp] theorem State.jumpIf_tick (s : State) (c : Bool) (a : Word) : (s.jumpIf c a).tick = s.tick := by cases c <;> rfl

/-! ## repeatIf -/

@[simp] theorem State.repeatIf_regs (s : State) (c : Bool) : (s.repeatIf c).regs = s.regs := by cases c <;> rfl
@[simp] theorem State.repeatIf_alt (s : State) (c : Bool) : (s.repeatIf c).alt = s.alt := by cases c <;> rfl
@[simp] theorem State.repeatIf_ix (s : State) (c : Bool) : (s.repeatIf c).ix = s.ix := by cases c <;> rfl
@[simp] theorem State.repeatIf_iy (s : State) (c : Bool) : (s.repeatIf c).iy = s.iy := by cases c <;> rfl
@[simp] theorem State.repeatIf_sp (s : State) (c : Bool) : (s.repeatIf c).sp = s.sp := by cases c <;> rfl
@[simp] theorem State.repeatIf_i (s : State) (c : Bool) : (s.repeatIf c).i = s.i := by cases c <;> rfl
@[simp] theorem State.repeatIf_r (s : State) (c : Bool) : (s.repeatIf c).r = s.r := by cases c <;> rfl
@[simp] theorem State.repeatIf_iff1 (s : State) (c : Bool) : (s.repeatIf c).iff1 = s.iff1 := by cases c <;> rfl
@[simp] theorem State.repeatIf_iff2 (s : State) (c : Bool) : (s.repeatIf c).iff2 = s.iff2 := by cases c <;> rfl
@[simp] theorem State.repeatIf_im (s : State) (c : Bool) : (s.repeatIf c).im = s.im := by cases c <;> rfl
@[simp] theorem State.repeatIf_nmiPending (s : State) (c : Bool) : (s.repeatIf c).nmiPending = s.nmiPending := by cases c <;> rfl
@[simp] theorem State.repeatIf_eiDelay (s : State) (c : Bool) : (s.repeatIf c).eiDelay = s.eiDelay := by cases c <;> rfl
@[simp] theorem State.repeatIf_halted (s : State) (c : Bool) : (s.repeatIf c).halted = s.halted := by cases c <;> rfl
@[simp] theorem State.repeatIf_board (s : State) (c : Bool) : (s.repeatIf c).board = s.board := by cases c <;> rfl
@[simp] theorem State.repeatIf_inputs (s : State) (c : Bool) : (s.repeatIf c).inputs = s.inputs := by cases c <;> rfl
@[simp] theorem State.repeatIf_gaps (s : State) (c : Bool) : (s.repeatIf c).gaps = s.gaps := by cases c <;> rfl
@[simp] theorem State.repeatIf_tick (s : State) (c : Bool) : (s.repeatIf c).tick = s.tick := by cases c <;> rfl

/-! ## afterTransfer -/

@[simp] theorem State.afterTransfer_alt (s : State) (d : Bool) : (s.afterTransfer d).alt = s.alt := rfl
@[simp] theorem State.afterTransfer_ix (s : State) (d : Bool) : (s.afterTransfer d).ix = s.ix := rfl
@[simp] theorem State.afterTransfer_iy (s : State) (d : Bool) : (s.afterTransfer d).iy = s.iy := rfl
@[simp] theorem State.afterTransfer_sp (s : State) (d : Bool) : (s.afterTransfer d).sp = s.sp := rfl
@[simp] theorem State.afterTransfer_pc (s : State) (d : Bool) : (s.afterTransfer d).pc = s.pc := rfl
@[simp] theorem State.afterTransfer_i (s : State) (d : Bool) : (s.afterTransfer d).i = s.i := rfl
@[simp] theorem State.afterTransfer_r (s : State) (d : Bool) : (s.afterTransfer d).r = s.r := rfl
@[simp] theorem State.afterTransfer_iff1 (s : State) (d : Bool) : (s.afterTransfer d).iff1 = s.iff1 := rfl
@[simp] theorem State.afterTransfer_iff2 (s : State) (d : Bool) : (s.afterTransfer d).iff2 = s.iff2 := rfl
@[simp] theorem State.afterTransfer_im (s : State) (d : Bool) : (s.afterTransfer d).im = s.im := rfl
@[simp] theorem State.afterTransfer_nmiPending (s : State) (d : Bool) : (s.afterTransfer d).nmiPending = s.nmiPending := rfl
@[simp] theorem State.afterTransfer_eiDelay (s : State) (d : Bool) : (s.afterTransfer d).eiDelay = s.eiDelay := rfl
@[simp] theorem State.afterTransfer_halted (s : State) (d : Bool) : (s.afterTransfer d).halted = s.halted := rfl
@[simp] theorem State.afterTransfer_board (s : State) (d : Bool) : (s.afterTransfer d).board = s.board := rfl
@[simp] theorem State.afterTransfer_inputs (s : State) (d : Bool) : (s.afterTransfer d).inputs = s.inputs := rfl
@[simp] theorem State.afterTransfer_gaps (s : State) (d : Bool) : (s.afterTransfer d).gaps = s.gaps := rfl
@[simp] theorem State.afterTransfer_tick (s : State) (d : Bool) : (s.afterTransfer d).tick = s.tick := rfl

/-! ## afterSearch -/

@[simp] theorem State.afterSearch_alt (s : State) (d : Bool) (v : Byte) : (s.afterSearch d v).alt = s.alt := rfl
@[simp] theorem State.afterSearch_ix (s : State) (d : Bool) (v : Byte) : (s.afterSearch d v).ix = s.ix := rfl
@[simp] theorem State.afterSearch_iy (s : State) (d : Bool) (v : Byte) : (s.afterSearch d v).iy = s.iy := rfl
@[simp] theorem State.afterSearch_sp (s : State) (d : Bool) (v : Byte) : (s.afterSearch d v).sp = s.sp := rfl
@[simp] theorem State.afterSearch_pc (s : State) (d : Bool) (v : Byte) : (s.afterSearch d v).pc = s.pc := rfl
@[simp] theorem State.afterSearch_i (s : State) (d : Bool) (v : Byte) : (s.afterSearch d v).i = s.i := rfl
@[simp] theorem State.afterSearch_r (s : State) (d : Bool) (v : Byte) : (s.afterSearch d v).r = s.r := rfl
@[simp] theorem State.afterSearch_iff1 (s : State) (d : Bool) (v : Byte) : (s.afterSearch d v).iff1 = s.iff1 := rfl
@[simp] theorem State.afterSearch_iff2 (s : State) (d : Bool) (v : Byte) : (s.afterSearch d v).iff2 = s.iff2 := rfl
@[simp] theorem State.afterSearch_im (s : State) (d : Bool) (v : Byte) : (s.afterSearch d v).im = s.im := rfl
@[simp] theorem State.afterSearch_nmiPending (s : State) (d : Bool) (v : Byte) : (s.afterSearch d v).nmiPending = s.nmiPending := rfl
@[simp] theorem State.afterSearch_eiDelay (s : State) (d : Bool) (v : Byte) : (s.afterSearch d v).eiDelay = s.eiDelay := rfl
@[simp] theorem State.afterSearch_halted (s : State) (d : Bool) (v : Byte) : (s.afterSearch d v).halted = s.halted := rfl
@[simp] theorem State.afterSearch_board (s : State) (d : Bool) (v : Byte) : (s.afterSearch d v).board = s.board := rfl
@[simp] theorem State.afterSearch_inputs (s : State) (d : Bool) (v : Byte) : (s.afterSearch d v).inputs = s.inputs := rfl
@[simp] theorem State.afterSearch_gaps (s : State) (d : Bool) (v : Byte) : (s.afterSearch d v).gaps = s.gaps := rfl
@[simp] theorem State.afterSearch_tick (s : State) (d : Bool) (v : Byte) : (s.afterSearch d v).tick = s.tick := rfl

/-! ## afterBlockIo -/

@[simp] theorem State.afterBlockIo_alt (s : State) (d : Bool) : (s.afterBlockIo d).alt = s.alt := rfl
@[simp] theorem State.afterBlockIo_ix (s : State) (d : Bool) : (s.afterBlockIo d).ix = s.ix := rfl
@[simp] theorem State.afterBlockIo_iy (s : State) (d : Bool) : (s.afterBlockIo d).iy = s.iy := rfl
@[simp] theorem State.afterBlockIo_sp (s : State) (d : Bool) : (s.afterBlockIo d).sp = s.sp := rfl
@[simp] theorem State.afterBlockIo_pc (s : State) (d : Bool) : (s.afterBlockIo d).pc = s.pc := rfl
@[simp] theorem State.afterBlockIo_i (s : State) (d : Bool) : (s.afterBlockIo d).i = s.i := rfl
@[simp] theorem State.afterBlockIo_r (s : State) (d : Bool) : (s.afterBlockIo d).r = s.r := rfl
@[simp] theorem State.afterBlockIo_iff1 (s : State) (d : Bool) : (s.afterBlockIo d).iff1 = s.iff1 := rfl
@[simp] theorem State.afterBlockIo_iff2 (s : State) (d : Bool) : (s.afterBlockIo d).iff2 = s.iff2 := rfl
@[simp] theorem State.afterBlockIo_im (s : State) (d : Bool) : (s.afterBlockIo d).im = s.im := rfl
@[simp] theorem State.afterBlockIo_nmiPending (s : State) (d : Bool) : (s.afterBlockIo d).nmiPending = s.nmiPending := rfl
@[simp] theorem State.afterBlockIo_eiDelay (s : State) (d : Bool) : (s.afterBlockIo d).eiDelay = s.eiDelay := rfl
@[simp] theorem State.afterBlockIo_halted (s : State) (d : Bool) : (s.afterBlockIo d).halted = s.halted := rfl
@[simp] theorem State.afterBlockIo_board (s : State) (d : Bool) : (s.afterBlockIo d).board = s.board := rfl
@[simp] theorem State.afterBlockIo_inputs (s : State) (d : Bool) : (s.afterBlockIo d).inputs = s.inputs := rfl
@[simp] theorem State.afterBlockIo_gaps (s : State) (d : Bool) : (s.afterBlockIo d).gaps = s.gaps := rfl
@[simp] theorem State.afterBlockIo_tick (s : State) (d : Bool) : (s.afterBlockIo d).tick = s.tick := rfl

/-! ## The fields that the updates write -/

@[simp] theorem State.jump_pc (s : State) (a : Word) : (s.jump a).pc = a := rfl
@[simp] theorem State.jumpIf_pc (s : State) (c : Bool) (a : Word) : (s.jumpIf c a).pc = if c then a else s.pc := by
  cases c <;> rfl
@[simp] theorem State.repeatIf_pc (s : State) (c : Bool) : (s.repeatIf c).pc = if c then s.pc - 2#16 else s.pc := by
  cases c <;> rfl
@[simp] theorem State.setF_f (s : State) (f : Flags) : (s.setF f).regs.f = f := rfl
@[simp] theorem State.setAF_a (s : State) (p : Byte × Flags) : (s.setAF p).regs.a = p.1 := rfl
@[simp] theorem State.setAF_f (s : State) (p : Byte × Flags) : (s.setAF p).regs.f = p.2 := rfl
@[simp] theorem State.setReg8_f (s : State) (r : Reg8) (v : Byte) : (s.setReg8 r v).regs.f = s.regs.f := by
  cases r <;> rfl
@[simp] theorem State.setBC_f (s : State) (w : Word) : (s.setBC w).regs.f = s.regs.f := rfl
@[simp] theorem State.setDE_f (s : State) (w : Word) : (s.setDE w).regs.f = s.regs.f := rfl
@[simp] theorem State.setHL_f (s : State) (w : Word) : (s.setHL w).regs.f = s.regs.f := rfl

/-! ## Reading a register after a write -/

@[simp] theorem State.reg8_setReg8_same (s : State) (r : Reg8) (v : Byte) : (s.setReg8 r v).reg8 r = v := by
  cases r <;> rfl

theorem State.reg8_setReg8_other (s : State) (r q : Reg8) (v : Byte) (h : q ≠ r) : (s.setReg8 r v).reg8 q = s.reg8 q := by
  cases r <;> cases q <;> first | rfl | exact absurd rfl h

@[simp] theorem State.reg8_setF (s : State) (f : Flags) (r : Reg8) : (s.setF f).reg8 r = s.reg8 r := by
  cases r <;> rfl

@[simp] theorem State.reg8_write (s : State) (a : Word) (v : Byte) (r : Reg8) : (s.write a v).reg8 r = s.reg8 r := by
  cases r <;> rfl

@[simp] theorem State.reg8_memRead (s : State) (a : Word) (r : Reg8) : (s.memRead a).2.reg8 r = s.reg8 r := by
  cases r <;> rfl

end Sys2Proof.Machine
end

