-- ==== Sys2Proof/Laws/Ops.lean ====
section
/-! SUPPORT. For each shared operation, once, everything it can do. Proofs cite these and do not unfold the operation. -/

namespace Sys2Proof.Machine

/-! ## Bytes and words -/

theorem word_toNat (h l : Byte) : (word h l).toNat = 256 * h.toNat + l.toNat := by
  refine (BitVec.toNat_append h l).trans ?_
  have := Nat.two_pow_add_eq_or_of_lt (i := 8) l.isLt h.toNat
  rw [Nat.shiftLeft_eq, Nat.mul_comm, ← this]

theorem hi_toNat (w : Word) : (hi w).toNat = w.toNat / 256 := by
  have := w.isLt
  simp [hi, Nat.shiftRight_eq_div_pow]; omega

theorem lo_toNat (w : Word) : (lo w).toNat = w.toNat % 256 := by simp [lo]

@[simp] theorem word_hi_lo (w : Word) : word (hi w) (lo w) = w := by
  apply BitVec.eq_of_toNat_eq
  rw [word_toNat, hi_toNat, lo_toNat]; omega

@[simp] theorem hi_word (h l : Byte) : hi (word h l) = h := by
  apply BitVec.eq_of_toNat_eq
  have := l.isLt
  rw [hi_toNat, word_toNat]; omega

@[simp] theorem lo_word (h l : Byte) : lo (word h l) = l := by
  apply BitVec.eq_of_toNat_eq
  have := l.isLt
  rw [lo_toNat, word_toNat]; omega

@[simp] theorem Flags.ofByte_toByte (f : Flags) : Flags.ofByte f.toByte = f := by
  cases f with
  | mk s z f5 h f3 pv n c =>
    cases s <;> cases z <;> cases f5 <;> cases h <;> cases f3 <;> cases pv <;> cases n <;> cases c <;> rfl

theorem Flags.toByte_ofByte : ∀ v : Byte, (Flags.ofByte v).toByte = v := by decide

/-! ## Registers -/

theorem State.setReg8_eq (s : State) (r : Reg8) (v : Byte) : s.setReg8 r v = { s with regs := (s.setReg8 r v).regs } := by
  cases r <;> rfl

theorem State.setPairSp_value (s : State) (p : PairSp) (w : Word) : (s.setPairSp p w).pairSp p = w := by
  cases p <;> first | rfl | exact word_hi_lo w

theorem State.setPairSp_eq (s : State) (p : PairSp) (w : Word) :
    s.setPairSp p w = { s with regs := (s.setPairSp p w).regs, sp := (s.setPairSp p w).sp } := by cases p <;> rfl

/-! ## Stores -/

/-- A byte write stores its byte (R63). -/
theorem State.write_stored (s : State) (a : Word) (v : Byte) : Stored s (s.write a v) a v where
  hit _ h := Board.peek_poke_same _ _ _ _ _ _ h.1 h.2
  miss _ h := Board.peek_poke_other _ _ _ _ _ _ h
  seen := Board.poke_log _ _ _

/-- A write moves no address to another cell. -/
theorem State.write_reaches (s : State) (a : Word) (v : Byte) (c c' : Word) :
    (s.write a v).reaches c c' ↔ s.reaches c c' := by
  unfold State.reaches State.write
  simp only [Board.isRam_poke, Board.sameCell_poke]

/-- Two byte writes, the second last (R64). -/
theorem State.write_storedTwo (s : State) (a₁ : Word) (v₁ : Byte) (a₂ : Word) (v₂ : Byte) :
    StoredTwo s ((s.write a₁ v₁).write a₂ v₂) a₁ v₁ a₂ v₂ where
  second a' h := ((s.write a₁ v₁).write_stored a₂ v₂).hit a' ((s.write_reaches a₁ v₁ a₂ a').mpr h)
  first a' h h' :=
    (((s.write a₁ v₁).write_stored a₂ v₂).miss a' fun g => h' ((s.write_reaches a₁ v₁ a₂ a').mp g)).trans
      ((s.write_stored a₁ v₁).hit a' h)
  miss a' h h' :=
    (((s.write a₁ v₁).write_stored a₂ v₂).miss a' fun g => h' ((s.write_reaches a₁ v₁ a₂ a').mp g)).trans
      ((s.write_stored a₁ v₁).miss a' h)

/-- What is stored is seen in every state that reads and shows the same. -/
theorem Stored.trans_read {s t u : State} {a : Word} {v : Byte} (h : Stored s t a v) (hb : ∀ x, u.read x = t.read x)
    (hl : u.board.log = t.board.log) : Stored s u a v :=
  ⟨fun x hx => (hb x).trans (h.hit x hx), fun x hx => (hb x).trans (h.miss x hx), hl.trans h.seen⟩

theorem StoredTwo.trans_read {s t u : State} {a₁ a₂ : Word} {v₁ v₂ : Byte} (h : StoredTwo s t a₁ v₁ a₂ v₂)
    (hb : ∀ x, u.read x = t.read x) : StoredTwo s u a₁ v₁ a₂ v₂ :=
  ⟨fun x hx => (hb x).trans (h.second x hx), fun x hx hx' => (hb x).trans (h.first x hx hx'),
    fun x hx hx' => (hb x).trans (h.miss x hx hx')⟩

/-! ## Machine cycles

For each operation, what it goes on with where no gap ends the instruction; `gap_next` and `cycle_next` say what else an instruction
that answers a next state can have done. -/

/-- All that a gap can be: none is listed, or RESET ends the step, or the bus masters have had their turn (R78, R580). -/
theorem State.gap_cases (s : State) :
    (s.gaps = [] ∧ s.gap = .ok s) ∨
    ∃ g rest b, s.gaps = g :: rest ∧ b = (s.board.events s.tick g.events).pollDmas ∧
      ((∃ e, s.gap = .error (.refused e)) ∨
       (g.reset = true ∧ s.gap = .error (.next { s with gaps := rest, board := b }.performReset)) ∨
       (g.reset = false ∧ ∃ c, b.release s.tick g = .ok c ∧ s.gap = .ok { s with gaps := rest, board := c })) := by
  unfold State.gap
  split
  · rename_i h; exact .inl ⟨h, rfl⟩
  · rename_i g rest h
    refine .inr ⟨g, rest, _, h, rfl, ?_⟩
    unfold State.takeGap
    dsimp only
    split
    · exact .inl ⟨_, rfl⟩
    · split
      · rename_i hr; exact .inr (.inl ⟨hr, rfl⟩)
      · rename_i hr
        split
        · rename_i c hc; exact .inr (.inr ⟨by simpa using hr, c, hc, rfl⟩)
        · exact .inl ⟨_, rfl⟩

@[simp] theorem State.gap_nil (s : State) (h : s.gaps = []) : s.gap = .ok s := by simp [State.gap, h]

/-- A gap that does not end the instruction leaves the CPU alone (R78, R460). -/
theorem State.gap_eq (s m : State) (h : s.gap = .ok m) : m = { s with board := m.board, gaps := s.gaps.tail } := by
  rcases s.gap_cases with ⟨hn, e⟩ | ⟨g, rest, b, hg, -, ⟨e', e⟩ | ⟨-, e⟩ | ⟨-, c, -, e⟩⟩ <;> rw [e] at h <;> cases h
  · rw [hn]; exact (by rw [← hn] : s = { s with gaps := [] })
  · rw [hg]; rfl

@[simp] theorem State.cycle_ok (s m : State) (k : State → Result) (h : s.gap = .ok m) : s.cycle k = k m := by
  rw [State.cycle, h]

@[simp] theorem State.cycle_error (s : State) (o : Result) (k : State → Result) (h : s.gap = .error o) : s.cycle k = o := by
  rw [State.cycle, h]

/-- A machine cycle that ends in a next state has had its gap and gone on, or RESET has cut it short (R580). -/
theorem State.cycle_next (s t : State) (k : State → Result) (h : s.cycle k = .next t) :
    (∃ m, s.gap = .ok m ∧ k m = .next t) ∨ s.gap = .error (.next t) := by
  unfold State.cycle at h
  split at h
  · exact .inl ⟨_, by assumption, h⟩
  · rename_i o ho; rw [ho, h]; exact .inr rfl

/-- Internal cycles go on where no gap ends the instruction. -/
theorem State.internal_ok (s t : State) (n : Nat) (k : State → Result) (h : Idles n s t) : s.internal n k = k t := by
  induction n generalizing s with
  | zero => rw [h]; rfl
  | succ n ih => obtain ⟨m, hm, h⟩ := h; exact (s.cycle_ok m _ hm).trans (ih m h)

/-- Internal cycles with no gap listed take nothing. -/
theorem State.idles_nil (s : State) (n : Nat) (h : s.gaps = []) : Idles n s s := by
  induction n with
  | zero => rfl
  | succ n ih => exact ⟨s, s.gap_nil h, ih⟩

/-- Internal cycles change the board alone. -/
theorem State.idles_eq (s t : State) (n : Nat) (h : Idles n s t) : t = { s with board := t.board, gaps := t.gaps } := by
  induction n generalizing s with
  | zero => rw [h]
  | succ n ih =>
    obtain ⟨m, hm, h⟩ := h
    rw [ih m h, s.gap_eq m hm]

theorem State.readThen_ok (s m : State) (a : Word) (k : Byte → State → Result) (h : s.gap = .ok m) :
    s.readThen a k = k (m.memRead a).1 (m.memRead a).2 := s.cycle_ok m _ h

theorem State.writeThen_ok (s m : State) (a : Word) (v : Byte) (k : State → Result) (h : s.gap = .ok m) :
    s.writeThen a v k = k (m.write a v) := s.cycle_ok m _ h

theorem State.readWordThen_ok (s m n : State) (a : Word) (k : Word → State → Result) (h : s.gap = .ok m)
    (h' : (m.memRead a).2.gap = .ok n) :
    s.readWordThen a k = k (word (n.memRead (a + 1#16)).1 (m.memRead a).1) (n.memRead (a + 1#16)).2 :=
  (s.readThen_ok m a _ h).trans (State.readThen_ok _ n _ _ h')

theorem State.writeWordThen_ok (s m n : State) (a w : Word) (k : State → Result) (h : s.gap = .ok m)
    (h' : (m.write a (lo w)).gap = .ok n) : s.writeWordThen a w k = k (n.write (a + 1#16) (hi w)) :=
  (s.writeThen_ok m a _ _ h).trans (State.writeThen_ok _ n _ _ _ h')

/-- A push in its two write cycles (R178). -/
theorem State.pushThen_ok (s m n : State) (w : Word) (k : State → Result) (h : s.gap = .ok m)
    (h' : (m.write (s.sp - 1#16) (hi w)).gap = .ok n) :
    s.pushThen w k = k { n.write (s.sp - 2#16) (lo w) with sp := s.sp - 2#16 } :=
  (s.writeThen_ok m _ _ _ h).trans (State.writeThen_ok _ n _ _ _ h')

/-- A pop in its two read cycles (R181). -/
theorem State.popThen_ok (s m n : State) (k : Word → State → Result) (h : s.gap = .ok m)
    (h' : (m.memRead s.sp).2.gap = .ok n) :
    s.popThen k = k (word (n.memRead (s.sp + 1#16)).1 (m.memRead s.sp).1)
      { (n.memRead (s.sp + 1#16)).2 with sp := s.sp + 2#16 } := s.readWordThen_ok m n s.sp _ h h'

/-- A call stores PC on the stack and goes to its target (R350). -/
theorem State.call_ok (s m n : State) (target : Word) (h : s.gap = .ok m)
    (h' : (m.write (s.sp - 1#16) (hi s.pc)).gap = .ok n) :
    s.call target =
      .next { n.write (s.sp - 2#16) (lo s.pc) with pc := target, sp := s.sp - 2#16, eiDelay := false } :=
  s.pushThen_ok m n _ _ h h'

/-- A return takes PC from the stack (R355). -/
theorem State.ret_ok (s m n : State) (h : s.gap = .ok m) (h' : (m.memRead s.sp).2.gap = .ok n) :
    s.ret = .next { (n.memRead (s.sp + 1#16)).2 with
      pc := word (n.memRead (s.sp + 1#16)).1 (m.memRead s.sp).1, sp := s.sp + 2#16, eiDelay := false } :=
  s.popThen_ok m n _ h h'

/-! ## The forms of an operation -/

/-- An operation on A changes A and F alone (R220). -/
theorem State.accumulate_eq (s : State) (op : AluOp) (v : Byte) :
    s.accumulate op v = { s with regs := { s.regs with
      a := (alu op s.unspec s.regs.f s.regs.a v).1, f := (alu op s.unspec s.regs.f s.regs.a v).2 } } := rfl

/-- An operation on a byte of memory: read, then its result written to the same address, and F (R65). -/
theorem State.modify_ok (s m n : State) (a : Word) (g : Flags → Flags → Byte → Byte × Flags) (h : s.gap = .ok m)
    (h' : (m.memRead a).2.gap = .ok n) :
    s.modify a g = finish ((n.write a (g s.unspec s.regs.f (m.memRead a).1).1).setF (g s.unspec s.regs.f (m.memRead a).1).2) :=
  (s.readThen_ok m a _ h).trans (State.writeThen_ok _ n _ _ _ h')

/-- SET and RES of a byte of memory: read, then written to the same address (R313, R316). -/
theorem State.rewrite_ok (s m n : State) (a : Word) (g : Byte → Byte) (h : s.gap = .ok m)
    (h' : (m.memRead a).2.gap = .ok n) : s.rewrite a g = finish (n.write a (g (m.memRead a).1)) :=
  (s.readThen_ok m a _ h).trans (State.writeThen_ok _ n _ _ _ h')

/-- An operation on a register gives it its result and changes F, no other register and nothing else (R236, R295). -/
theorem State.modifyReg_cases (s : State) (r : Reg8) (g : Flags → Flags → Byte → Byte × Flags) :
    (s.modifyReg r g).reg8 r = (g s.unspec s.regs.f (s.reg8 r)).1 ∧
    (s.modifyReg r g).regs.f = (g s.unspec s.regs.f (s.reg8 r)).2 ∧
    (∀ q, q ≠ r → (s.modifyReg r g).reg8 q = s.reg8 q) ∧
    s.modifyReg r g = { s with regs := (s.modifyReg r g).regs } := by
  refine ⟨by cases r <;> rfl, rfl, fun q h => ?_, by cases r <;> rfl⟩
  cases r <;> cases q <;> first | rfl | exact absurd rfl h

/-- SET puts 1 into one bit (R313). -/
theorem setBit_bit : ∀ (v : Byte) (b k : Nat), b < 8 → k < 8 →
    (setBit b v).getLsbD k = if k = b then true else v.getLsbD k := by
  intro v b k hb hk
  interval_cases b <;> interval_cases k <;> simp [setBit, bitMask]

/-- RES puts 0 into one bit (R316). -/
theorem resetBit_bit : ∀ (v : Byte) (b k : Nat), b < 8 → k < 8 →
    (resetBit b v).getLsbD k = if k = b then false else v.getLsbD k := by
  intro v b k hb hk
  interval_cases b <;> interval_cases k <;> simp [resetBit, bitMask]

/-- Even parity counts the bits that are 1 (R8, R33). -/
theorem parityEven_eq : ∀ v : Byte,
    parityEven v = decide ((List.range 8).countP (fun k => v.getLsbD k) % 2 = 0) := by decide

/-! ## Blocks -/

/-- The registers after a block transfer: both pointers, BC and F (R202, R203). -/
theorem State.afterTransfer_cases (s : State) (down : Bool) :
    (s.afterTransfer down).de = stepPointer down s.de ∧ (s.afterTransfer down).hl = stepPointer down s.hl ∧
    (s.afterTransfer down).bc = s.bc - 1#16 ∧ (s.afterTransfer down).regs.a = s.regs.a ∧
    (s.afterTransfer down).regs.f = transferFlags s.unspec s.regs.f (s.bc - 1#16) ∧
    s.afterTransfer down = { s with regs := (s.afterTransfer down).regs } :=
  ⟨word_hi_lo _, word_hi_lo _, word_hi_lo _, rfl, rfl, rfl⟩

/-- The registers after a block search: HL, BC and F (R206, R207). -/
theorem State.afterSearch_cases (s : State) (down : Bool) (v : Byte) :
    (s.afterSearch down v).hl = stepPointer down s.hl ∧ (s.afterSearch down v).bc = s.bc - 1#16 ∧
    (s.afterSearch down v).de = s.de ∧ (s.afterSearch down v).regs.a = s.regs.a ∧
    (s.afterSearch down v).regs.f = searchFlags s.unspec s.regs.f s.regs.a v (s.bc - 1#16) ∧
    s.afterSearch down v = { s with regs := (s.afterSearch down v).regs } :=
  ⟨word_hi_lo _, word_hi_lo _, rfl, rfl, rfl, rfl⟩

/-- The registers after a block input or output: HL, B and F (R380, R384). -/
theorem State.afterBlockIo_cases (s : State) (down : Bool) :
    (s.afterBlockIo down).hl = stepPointer down s.hl ∧ (s.afterBlockIo down).regs.b = s.regs.b - 1#8 ∧
    (s.afterBlockIo down).regs.f = blockIoFlags s.unspec (s.regs.b - 1#8) ∧
    (s.afterBlockIo down).regs.a = s.regs.a ∧ (s.afterBlockIo down).regs.c = s.regs.c ∧
    (s.afterBlockIo down).de = s.de ∧ s.afterBlockIo down = { s with regs := (s.afterBlockIo down).regs } :=
  ⟨word_hi_lo _, rfl, rfl, rfl, rfl, rfl, rfl⟩

/-- A block transfer: a byte read at HL, then stored at DE, then the registers, after an internal cycle where it repeats (R202, R203,
R210). -/
theorem State.blockTransfer_ok (s m n p : State) (down again : Bool) (h : s.gap = .ok m)
    (h' : (m.memRead s.hl).2.gap = .ok n) (hp : Idles again.toNat (n.write s.de (m.memRead s.hl).1) p) :
    s.blockTransfer down again = finish ((p.afterTransfer down).repeatIf again) :=
  (s.readThen_ok m _ _ h).trans ((State.writeThen_ok _ n _ _ _ h').trans (State.internal_ok _ p _ _ hp))

/-- A block search: a byte read at HL, then its internal cycles, then the registers (R206, R207, R210). -/
theorem State.blockSearch_ok (s m p : State) (down repeats : Bool) (h : s.gap = .ok m)
    (hp : Idles (1 + (s.searchAgain repeats (m.memRead s.hl).1).toNat) (m.memRead s.hl).2 p) :
    s.blockSearch down repeats = finish ((p.afterSearch down (m.memRead s.hl).1).repeatIf
      (s.searchAgain repeats (m.memRead s.hl).1)) := (s.readThen_ok m _ _ h).trans (State.internal_ok _ p _ _ hp)

/-! ## I/O -/

theorem State.portReadThen_ok (s m : State) (port : Word) (k : Byte → State → Result) (h : s.gap = .ok m) :
    s.portReadThen port k = k (m.board.ioRead m.tick port).1 { m with board := (m.board.ioRead m.tick port).2 } :=
  s.cycle_ok m _ h

/-- An output whose cycle a chip takes goes on; one whose word a chip refuses is refused. -/
theorem State.portWriteThen_ok (s m : State) (port : Word) (v : Byte) (k : State → Result) (h : s.gap = .ok m) :
    (∀ b, m.board.ioWrite m.tick port v = .ok b → s.portWriteThen port v k = k { m with board := b }) ∧
    ∀ e, m.board.ioWrite m.tick port v = .error e → s.portWriteThen port v k = .refused e := by
  rw [State.portWriteThen, s.cycle_ok m _ h]
  exact ⟨fun b hb => by rw [hb], fun e he => by rw [he]⟩

/-- A block input: a port's byte, then stored at HL, then the registers, after an internal cycle where it repeats (R380, R381, R595). -/
theorem State.blockInput_ok (s m n p : State) (down again : Bool) (h : s.gap = .ok m)
    (h' : { m with board := (m.board.ioRead m.tick s.portBC).2 }.gap = .ok n)
    (hp : Idles again.toNat (n.write s.hl (m.board.ioRead m.tick s.portBC).1) p) :
    s.blockInput down again = finish ((p.afterBlockIo down).repeatIf again) :=
  (s.portReadThen_ok m _ _ h).trans ((State.writeThen_ok _ n _ _ _ h').trans (State.internal_ok _ p _ _ hp))

/-- A block output: a byte read at HL, then written to the port, then the registers, after an internal cycle where it repeats (R384,
R385, R595). -/
theorem State.blockOutput_ok (s m n : State) (down again : Bool) (h : s.gap = .ok m) (h' : (m.memRead s.hl).2.gap = .ok n) :
    (∀ b p, n.board.ioWrite n.tick (word (s.regs.b - 1#8) s.regs.c) (m.memRead s.hl).1 = .ok b →
      Idles again.toNat { n with board := b } p →
      s.blockOutput down again = finish ((p.afterBlockIo down).repeatIf again)) ∧
    ∀ e, n.board.ioWrite n.tick (word (s.regs.b - 1#8) s.regs.c) (m.memRead s.hl).1 = .error e →
      s.blockOutput down again = .refused e := by
  rw [State.blockOutput, s.readThen_ok m _ _ h]
  obtain ⟨h₁, h₂⟩ := State.portWriteThen_ok (m.memRead s.hl).2 n (word (s.regs.b - 1#8) s.regs.c) (m.memRead s.hl).1
    (fun u => u.internal again.toNat fun w => finish ((w.afterBlockIo down).repeatIf again)) h'
  exact ⟨fun b p hb hp => (h₁ b hb).trans (State.internal_ok _ p _ _ hp), h₂⟩

/-! ## What holds of every next state

A property of the next states of an instruction, from its machine cycles. -/

/-- Every next state that the outcome can be has the property. -/
def Every (Q : State → Prop) (o : Result) : Prop := ∀ t, o = .next t → Q t

theorem Every.finish {Q : State → Prop} {s : State} (h : Q { s with eiDelay := false }) : Every Q (finish s) := by
  intro t e; cases e; exact h

theorem Every.next {Q : State → Prop} {s : State} (h : Q s) : Every Q (.next s) := by
  intro t e; cases e; exact h

theorem Every.refused {Q : State → Prop} {e : Refusal} : Every Q (.refused e) := fun _ h => nomatch h

theorem Every.fault {Q : State → Prop} {f : Fault} : Every Q (.fault f) := fun _ h => nomatch h

/-- A machine cycle keeps what its continuation keeps and what a RESET in its gap leaves. -/
theorem Every.cycle {Q : State → Prop} {s : State} {k : State → Result} (hr : ∀ t, s.gap = .error (.next t) → Q t)
    (hk : ∀ m, s.gap = .ok m → Every Q (k m)) : Every Q (s.cycle k) := by
  intro t h
  rcases s.cycle_next t k h with ⟨m, hm, h⟩ | h
  · exact hk m hm t h
  · exact hr t h

end Sys2Proof.Machine
end

