-- ==== Sys2Proof/Laws/PerInstr.lean ====
section
/-! SUPPORT. A family of facts about every instruction as syntax: the length of its encoding and the number of its M1 cycles
are one of the six pairs that R38, R91 and R92 allow. -/

namespace Sys2Proof.Laws

/-- The pairs of length and M1 cycles of R91 and R38: one M1 cycle for F1 to F4, two for the forms with a prefix byte. -/
def lengthPair (length m1 : Nat) : Bool :=
  match m1 with
  | 1 => length == 1 || length == 2 || length == 3
  | 2 => length == 2 || length == 3 || length == 4
  | _ => false

/-- The encoding of the instruction has a length and a number of M1 cycles that go together. -/
def EncodedLength.Statement (i : Instr) : Prop := lengthPair i.length i.m1Cycles = true

theorem EncodedLength.ldRR (dst : Reg8) (src : Reg8) : EncodedLength.Statement (.ldRR dst src) := by
  cases dst <;> cases src <;> rfl
theorem EncodedLength.ldRN (r : Reg8) (n : Byte) : EncodedLength.Statement (.ldRN r n) := by
  cases r <;> rfl
theorem EncodedLength.ldRHl (r : Reg8) : EncodedLength.Statement (.ldRHl r) := by
  cases r <;> rfl
theorem EncodedLength.ldRIx (r : Reg8) (d : Byte) : EncodedLength.Statement (.ldRIx r d) := by
  cases r <;> rfl
theorem EncodedLength.ldRIy (r : Reg8) (d : Byte) : EncodedLength.Statement (.ldRIy r d) := by
  cases r <;> rfl
theorem EncodedLength.ldHlR (r : Reg8) : EncodedLength.Statement (.ldHlR r) := by
  cases r <;> rfl
theorem EncodedLength.ldIxR (d : Byte) (r : Reg8) : EncodedLength.Statement (.ldIxR d r) := by
  cases r <;> rfl
theorem EncodedLength.ldIyR (d : Byte) (r : Reg8) : EncodedLength.Statement (.ldIyR d r) := by
  cases r <;> rfl
theorem EncodedLength.ldHlN (n : Byte) : EncodedLength.Statement (.ldHlN n) := by
  rfl
theorem EncodedLength.ldIxN (d : Byte) (n : Byte) : EncodedLength.Statement (.ldIxN d n) := by
  rfl
theorem EncodedLength.ldIyN (d : Byte) (n : Byte) : EncodedLength.Statement (.ldIyN d n) := by
  rfl
theorem EncodedLength.ldABc : EncodedLength.Statement (.ldABc) := by
  rfl
theorem EncodedLength.ldADe : EncodedLength.Statement (.ldADe) := by
  rfl
theorem EncodedLength.ldAMem (nn : Word) : EncodedLength.Statement (.ldAMem nn) := by
  rfl
theorem EncodedLength.ldBcA : EncodedLength.Statement (.ldBcA) := by
  rfl
theorem EncodedLength.ldDeA : EncodedLength.Statement (.ldDeA) := by
  rfl
theorem EncodedLength.ldMemA (nn : Word) : EncodedLength.Statement (.ldMemA nn) := by
  rfl
theorem EncodedLength.ldAI : EncodedLength.Statement (.ldAI) := by
  rfl
theorem EncodedLength.ldAR : EncodedLength.Statement (.ldAR) := by
  rfl
theorem EncodedLength.ldIA : EncodedLength.Statement (.ldIA) := by
  rfl
theorem EncodedLength.ldRA : EncodedLength.Statement (.ldRA) := by
  rfl
theorem EncodedLength.ldDdNn (dd : PairSp) (nn : Word) : EncodedLength.Statement (.ldDdNn dd nn) := by
  cases dd <;> rfl
theorem EncodedLength.ldIxNn (nn : Word) : EncodedLength.Statement (.ldIxNn nn) := by
  rfl
theorem EncodedLength.ldIyNn (nn : Word) : EncodedLength.Statement (.ldIyNn nn) := by
  rfl
theorem EncodedLength.ldHlMem (nn : Word) : EncodedLength.Statement (.ldHlMem nn) := by
  rfl
theorem EncodedLength.ldDdMem (dd : PairSp) (nn : Word) : EncodedLength.Statement (.ldDdMem dd nn) := by
  cases dd <;> rfl
theorem EncodedLength.ldIxMem (nn : Word) : EncodedLength.Statement (.ldIxMem nn) := by
  rfl
theorem EncodedLength.ldIyMem (nn : Word) : EncodedLength.Statement (.ldIyMem nn) := by
  rfl
theorem EncodedLength.ldMemHl (nn : Word) : EncodedLength.Statement (.ldMemHl nn) := by
  rfl
theorem EncodedLength.ldMemDd (nn : Word) (dd : PairSp) : EncodedLength.Statement (.ldMemDd nn dd) := by
  cases dd <;> rfl
theorem EncodedLength.ldMemIx (nn : Word) : EncodedLength.Statement (.ldMemIx nn) := by
  rfl
theorem EncodedLength.ldMemIy (nn : Word) : EncodedLength.Statement (.ldMemIy nn) := by
  rfl
theorem EncodedLength.ldSpHl : EncodedLength.Statement (.ldSpHl) := by
  rfl
theorem EncodedLength.ldSpIx : EncodedLength.Statement (.ldSpIx) := by
  rfl
theorem EncodedLength.ldSpIy : EncodedLength.Statement (.ldSpIy) := by
  rfl
theorem EncodedLength.pushQq (qq : PairAf) : EncodedLength.Statement (.pushQq qq) := by
  cases qq <;> rfl
theorem EncodedLength.pushIx : EncodedLength.Statement (.pushIx) := by
  rfl
theorem EncodedLength.pushIy : EncodedLength.Statement (.pushIy) := by
  rfl
theorem EncodedLength.popQq (qq : PairAf) : EncodedLength.Statement (.popQq qq) := by
  cases qq <;> rfl
theorem EncodedLength.popIx : EncodedLength.Statement (.popIx) := by
  rfl
theorem EncodedLength.popIy : EncodedLength.Statement (.popIy) := by
  rfl
theorem EncodedLength.exDeHl : EncodedLength.Statement (.exDeHl) := by
  rfl
theorem EncodedLength.exAfAf : EncodedLength.Statement (.exAfAf) := by
  rfl
theorem EncodedLength.exx : EncodedLength.Statement (.exx) := by
  rfl
theorem EncodedLength.exSpHl : EncodedLength.Statement (.exSpHl) := by
  rfl
theorem EncodedLength.exSpIx : EncodedLength.Statement (.exSpIx) := by
  rfl
theorem EncodedLength.exSpIy : EncodedLength.Statement (.exSpIy) := by
  rfl
theorem EncodedLength.ldi : EncodedLength.Statement (.ldi) := by
  rfl
theorem EncodedLength.ldd : EncodedLength.Statement (.ldd) := by
  rfl
theorem EncodedLength.ldir : EncodedLength.Statement (.ldir) := by
  rfl
theorem EncodedLength.lddr : EncodedLength.Statement (.lddr) := by
  rfl
theorem EncodedLength.cpi : EncodedLength.Statement (.cpi) := by
  rfl
theorem EncodedLength.cpd : EncodedLength.Statement (.cpd) := by
  rfl
theorem EncodedLength.cpir : EncodedLength.Statement (.cpir) := by
  rfl
theorem EncodedLength.cpdr : EncodedLength.Statement (.cpdr) := by
  rfl
theorem EncodedLength.addAR (r : Reg8) : EncodedLength.Statement (.addAR r) := by
  cases r <;> rfl
theorem EncodedLength.addAN (n : Byte) : EncodedLength.Statement (.addAN n) := by
  rfl
theorem EncodedLength.addAHl : EncodedLength.Statement (.addAHl) := by
  rfl
theorem EncodedLength.addAIx (d : Byte) : EncodedLength.Statement (.addAIx d) := by
  rfl
theorem EncodedLength.addAIy (d : Byte) : EncodedLength.Statement (.addAIy d) := by
  rfl
theorem EncodedLength.adcAR (r : Reg8) : EncodedLength.Statement (.adcAR r) := by
  cases r <;> rfl
theorem EncodedLength.adcAN (n : Byte) : EncodedLength.Statement (.adcAN n) := by
  rfl
theorem EncodedLength.adcAHl : EncodedLength.Statement (.adcAHl) := by
  rfl
theorem EncodedLength.adcAIx (d : Byte) : EncodedLength.Statement (.adcAIx d) := by
  rfl
theorem EncodedLength.adcAIy (d : Byte) : EncodedLength.Statement (.adcAIy d) := by
  rfl
theorem EncodedLength.subR (r : Reg8) : EncodedLength.Statement (.subR r) := by
  cases r <;> rfl
theorem EncodedLength.subN (n : Byte) : EncodedLength.Statement (.subN n) := by
  rfl
theorem EncodedLength.subHl : EncodedLength.Statement (.subHl) := by
  rfl
theorem EncodedLength.subIx (d : Byte) : EncodedLength.Statement (.subIx d) := by
  rfl
theorem EncodedLength.subIy (d : Byte) : EncodedLength.Statement (.subIy d) := by
  rfl
theorem EncodedLength.sbcAR (r : Reg8) : EncodedLength.Statement (.sbcAR r) := by
  cases r <;> rfl
theorem EncodedLength.sbcAN (n : Byte) : EncodedLength.Statement (.sbcAN n) := by
  rfl
theorem EncodedLength.sbcAHl : EncodedLength.Statement (.sbcAHl) := by
  rfl
theorem EncodedLength.sbcAIx (d : Byte) : EncodedLength.Statement (.sbcAIx d) := by
  rfl
theorem EncodedLength.sbcAIy (d : Byte) : EncodedLength.Statement (.sbcAIy d) := by
  rfl
theorem EncodedLength.andR (r : Reg8) : EncodedLength.Statement (.andR r) := by
  cases r <;> rfl
theorem EncodedLength.andN (n : Byte) : EncodedLength.Statement (.andN n) := by
  rfl
theorem EncodedLength.andHl : EncodedLength.Statement (.andHl) := by
  rfl
theorem EncodedLength.andIx (d : Byte) : EncodedLength.Statement (.andIx d) := by
  rfl
theorem EncodedLength.andIy (d : Byte) : EncodedLength.Statement (.andIy d) := by
  rfl
theorem EncodedLength.xorR (r : Reg8) : EncodedLength.Statement (.xorR r) := by
  cases r <;> rfl
theorem EncodedLength.xorN (n : Byte) : EncodedLength.Statement (.xorN n) := by
  rfl
theorem EncodedLength.xorHl : EncodedLength.Statement (.xorHl) := by
  rfl
theorem EncodedLength.xorIx (d : Byte) : EncodedLength.Statement (.xorIx d) := by
  rfl
theorem EncodedLength.xorIy (d : Byte) : EncodedLength.Statement (.xorIy d) := by
  rfl
theorem EncodedLength.orR (r : Reg8) : EncodedLength.Statement (.orR r) := by
  cases r <;> rfl
theorem EncodedLength.orN (n : Byte) : EncodedLength.Statement (.orN n) := by
  rfl
theorem EncodedLength.orHl : EncodedLength.Statement (.orHl) := by
  rfl
theorem EncodedLength.orIx (d : Byte) : EncodedLength.Statement (.orIx d) := by
  rfl
theorem EncodedLength.orIy (d : Byte) : EncodedLength.Statement (.orIy d) := by
  rfl
theorem EncodedLength.cpR (r : Reg8) : EncodedLength.Statement (.cpR r) := by
  cases r <;> rfl
theorem EncodedLength.cpN (n : Byte) : EncodedLength.Statement (.cpN n) := by
  rfl
theorem EncodedLength.cpHl : EncodedLength.Statement (.cpHl) := by
  rfl
theorem EncodedLength.cpIx (d : Byte) : EncodedLength.Statement (.cpIx d) := by
  rfl
theorem EncodedLength.cpIy (d : Byte) : EncodedLength.Statement (.cpIy d) := by
  rfl
theorem EncodedLength.incR (r : Reg8) : EncodedLength.Statement (.incR r) := by
  cases r <;> rfl
theorem EncodedLength.incHl : EncodedLength.Statement (.incHl) := by
  rfl
theorem EncodedLength.incIxd (d : Byte) : EncodedLength.Statement (.incIxd d) := by
  rfl
theorem EncodedLength.incIyd (d : Byte) : EncodedLength.Statement (.incIyd d) := by
  rfl
theorem EncodedLength.decR (r : Reg8) : EncodedLength.Statement (.decR r) := by
  cases r <;> rfl
theorem EncodedLength.decHl : EncodedLength.Statement (.decHl) := by
  rfl
theorem EncodedLength.decIxd (d : Byte) : EncodedLength.Statement (.decIxd d) := by
  rfl
theorem EncodedLength.decIyd (d : Byte) : EncodedLength.Statement (.decIyd d) := by
  rfl
theorem EncodedLength.daa : EncodedLength.Statement (.daa) := by
  rfl
theorem EncodedLength.cpl : EncodedLength.Statement (.cpl) := by
  rfl
theorem EncodedLength.neg : EncodedLength.Statement (.neg) := by
  rfl
theorem EncodedLength.ccf : EncodedLength.Statement (.ccf) := by
  rfl
theorem EncodedLength.scf : EncodedLength.Statement (.scf) := by
  rfl
theorem EncodedLength.addHlSs (ss : PairSp) : EncodedLength.Statement (.addHlSs ss) := by
  cases ss <;> rfl
theorem EncodedLength.addIxPp (pp : PairIx) : EncodedLength.Statement (.addIxPp pp) := by
  cases pp <;> rfl
theorem EncodedLength.addIyRr (rr : PairIy) : EncodedLength.Statement (.addIyRr rr) := by
  cases rr <;> rfl
theorem EncodedLength.adcHlSs (ss : PairSp) : EncodedLength.Statement (.adcHlSs ss) := by
  cases ss <;> rfl
theorem EncodedLength.sbcHlSs (ss : PairSp) : EncodedLength.Statement (.sbcHlSs ss) := by
  cases ss <;> rfl
theorem EncodedLength.incSs (ss : PairSp) : EncodedLength.Statement (.incSs ss) := by
  cases ss <;> rfl
theorem EncodedLength.incIx : EncodedLength.Statement (.incIx) := by
  rfl
theorem EncodedLength.incIy : EncodedLength.Statement (.incIy) := by
  rfl
theorem EncodedLength.decSs (ss : PairSp) : EncodedLength.Statement (.decSs ss) := by
  cases ss <;> rfl
theorem EncodedLength.decIx : EncodedLength.Statement (.decIx) := by
  rfl
theorem EncodedLength.decIy : EncodedLength.Statement (.decIy) := by
  rfl
theorem EncodedLength.rlca : EncodedLength.Statement (.rlca) := by
  rfl
theorem EncodedLength.rrca : EncodedLength.Statement (.rrca) := by
  rfl
theorem EncodedLength.rla : EncodedLength.Statement (.rla) := by
  rfl
theorem EncodedLength.rra : EncodedLength.Statement (.rra) := by
  rfl
theorem EncodedLength.rlcR (r : Reg8) : EncodedLength.Statement (.rlcR r) := by
  cases r <;> rfl
theorem EncodedLength.rlcHl : EncodedLength.Statement (.rlcHl) := by
  rfl
theorem EncodedLength.rlcIx (d : Byte) : EncodedLength.Statement (.rlcIx d) := by
  rfl
theorem EncodedLength.rlcIy (d : Byte) : EncodedLength.Statement (.rlcIy d) := by
  rfl
theorem EncodedLength.rrcR (r : Reg8) : EncodedLength.Statement (.rrcR r) := by
  cases r <;> rfl
theorem EncodedLength.rrcHl : EncodedLength.Statement (.rrcHl) := by
  rfl
theorem EncodedLength.rrcIx (d : Byte) : EncodedLength.Statement (.rrcIx d) := by
  rfl
theorem EncodedLength.rrcIy (d : Byte) : EncodedLength.Statement (.rrcIy d) := by
  rfl
theorem EncodedLength.rlR (r : Reg8) : EncodedLength.Statement (.rlR r) := by
  cases r <;> rfl
theorem EncodedLength.rlHl : EncodedLength.Statement (.rlHl) := by
  rfl
theorem EncodedLength.rlIx (d : Byte) : EncodedLength.Statement (.rlIx d) := by
  rfl
theorem EncodedLength.rlIy (d : Byte) : EncodedLength.Statement (.rlIy d) := by
  rfl
theorem EncodedLength.rrR (r : Reg8) : EncodedLength.Statement (.rrR r) := by
  cases r <;> rfl
theorem EncodedLength.rrHl : EncodedLength.Statement (.rrHl) := by
  rfl
theorem EncodedLength.rrIx (d : Byte) : EncodedLength.Statement (.rrIx d) := by
  rfl
theorem EncodedLength.rrIy (d : Byte) : EncodedLength.Statement (.rrIy d) := by
  rfl
theorem EncodedLength.slaR (r : Reg8) : EncodedLength.Statement (.slaR r) := by
  cases r <;> rfl
theorem EncodedLength.slaHl : EncodedLength.Statement (.slaHl) := by
  rfl
theorem EncodedLength.slaIx (d : Byte) : EncodedLength.Statement (.slaIx d) := by
  rfl
theorem EncodedLength.slaIy (d : Byte) : EncodedLength.Statement (.slaIy d) := by
  rfl
theorem EncodedLength.sraR (r : Reg8) : EncodedLength.Statement (.sraR r) := by
  cases r <;> rfl
theorem EncodedLength.sraHl : EncodedLength.Statement (.sraHl) := by
  rfl
theorem EncodedLength.sraIx (d : Byte) : EncodedLength.Statement (.sraIx d) := by
  rfl
theorem EncodedLength.sraIy (d : Byte) : EncodedLength.Statement (.sraIy d) := by
  rfl
theorem EncodedLength.srlR (r : Reg8) : EncodedLength.Statement (.srlR r) := by
  cases r <;> rfl
theorem EncodedLength.srlHl : EncodedLength.Statement (.srlHl) := by
  rfl
theorem EncodedLength.srlIx (d : Byte) : EncodedLength.Statement (.srlIx d) := by
  rfl
theorem EncodedLength.srlIy (d : Byte) : EncodedLength.Statement (.srlIy d) := by
  rfl
theorem EncodedLength.rld : EncodedLength.Statement (.rld) := by
  rfl
theorem EncodedLength.rrd : EncodedLength.Statement (.rrd) := by
  rfl
theorem EncodedLength.bitR (b : Nat) (r : Reg8) : EncodedLength.Statement (.bitR b r) := by
  cases r <;> rfl
theorem EncodedLength.bitHl (b : Nat) : EncodedLength.Statement (.bitHl b) := by
  rfl
theorem EncodedLength.bitIx (b : Nat) (d : Byte) : EncodedLength.Statement (.bitIx b d) := by
  rfl
theorem EncodedLength.bitIy (b : Nat) (d : Byte) : EncodedLength.Statement (.bitIy b d) := by
  rfl
theorem EncodedLength.setR (b : Nat) (r : Reg8) : EncodedLength.Statement (.setR b r) := by
  cases r <;> rfl
theorem EncodedLength.setHl (b : Nat) : EncodedLength.Statement (.setHl b) := by
  rfl
theorem EncodedLength.setIx (b : Nat) (d : Byte) : EncodedLength.Statement (.setIx b d) := by
  rfl
theorem EncodedLength.setIy (b : Nat) (d : Byte) : EncodedLength.Statement (.setIy b d) := by
  rfl
theorem EncodedLength.resR (b : Nat) (r : Reg8) : EncodedLength.Statement (.resR b r) := by
  cases r <;> rfl
theorem EncodedLength.resHl (b : Nat) : EncodedLength.Statement (.resHl b) := by
  rfl
theorem EncodedLength.resIx (b : Nat) (d : Byte) : EncodedLength.Statement (.resIx b d) := by
  rfl
theorem EncodedLength.resIy (b : Nat) (d : Byte) : EncodedLength.Statement (.resIy b d) := by
  rfl
theorem EncodedLength.jpNn (nn : Word) : EncodedLength.Statement (.jpNn nn) := by
  rfl
theorem EncodedLength.jpCcNn (cc : Cond) (nn : Word) : EncodedLength.Statement (.jpCcNn cc nn) := by
  cases cc <;> rfl
theorem EncodedLength.jpHl : EncodedLength.Statement (.jpHl) := by
  rfl
theorem EncodedLength.jpIx : EncodedLength.Statement (.jpIx) := by
  rfl
theorem EncodedLength.jpIy : EncodedLength.Statement (.jpIy) := by
  rfl
theorem EncodedLength.jrE (e : Byte) : EncodedLength.Statement (.jrE e) := by
  rfl
theorem EncodedLength.jrNz (e : Byte) : EncodedLength.Statement (.jrNz e) := by
  rfl
theorem EncodedLength.jrZ (e : Byte) : EncodedLength.Statement (.jrZ e) := by
  rfl
theorem EncodedLength.jrNc (e : Byte) : EncodedLength.Statement (.jrNc e) := by
  rfl
theorem EncodedLength.jrC (e : Byte) : EncodedLength.Statement (.jrC e) := by
  rfl
theorem EncodedLength.djnz (e : Byte) : EncodedLength.Statement (.djnz e) := by
  rfl
theorem EncodedLength.callNn (nn : Word) : EncodedLength.Statement (.callNn nn) := by
  rfl
theorem EncodedLength.callCcNn (cc : Cond) (nn : Word) : EncodedLength.Statement (.callCcNn cc nn) := by
  cases cc <;> rfl
theorem EncodedLength.ret : EncodedLength.Statement (.ret) := by
  rfl
theorem EncodedLength.retCc (cc : Cond) : EncodedLength.Statement (.retCc cc) := by
  cases cc <;> rfl
theorem EncodedLength.reti : EncodedLength.Statement (.reti) := by
  rfl
theorem EncodedLength.retn : EncodedLength.Statement (.retn) := by
  rfl
theorem EncodedLength.rstP (p : Byte) : EncodedLength.Statement (.rstP p) := by
  revert p
  unfold EncodedLength.Statement
  decide
theorem EncodedLength.inAN (n : Byte) : EncodedLength.Statement (.inAN n) := by
  rfl
theorem EncodedLength.inRC (r : Reg8) : EncodedLength.Statement (.inRC r) := by
  cases r <;> rfl
theorem EncodedLength.outNA (n : Byte) : EncodedLength.Statement (.outNA n) := by
  rfl
theorem EncodedLength.outCR (r : Reg8) : EncodedLength.Statement (.outCR r) := by
  cases r <;> rfl
theorem EncodedLength.ini : EncodedLength.Statement (.ini) := by
  rfl
theorem EncodedLength.ind : EncodedLength.Statement (.ind) := by
  rfl
theorem EncodedLength.inir : EncodedLength.Statement (.inir) := by
  rfl
theorem EncodedLength.indr : EncodedLength.Statement (.indr) := by
  rfl
theorem EncodedLength.outi : EncodedLength.Statement (.outi) := by
  rfl
theorem EncodedLength.outd : EncodedLength.Statement (.outd) := by
  rfl
theorem EncodedLength.otir : EncodedLength.Statement (.otir) := by
  rfl
theorem EncodedLength.otdr : EncodedLength.Statement (.otdr) := by
  rfl
theorem EncodedLength.nop : EncodedLength.Statement (.nop) := by
  rfl
theorem EncodedLength.halt : EncodedLength.Statement (.halt) := by
  rfl
theorem EncodedLength.di : EncodedLength.Statement (.di) := by
  rfl
theorem EncodedLength.ei : EncodedLength.Statement (.ei) := by
  rfl
theorem EncodedLength.im0 : EncodedLength.Statement (.im0) := by
  rfl
theorem EncodedLength.im1 : EncodedLength.Statement (.im1) := by
  rfl
theorem EncodedLength.im2 : EncodedLength.Statement (.im2) := by
  rfl

end Sys2Proof.Laws
end

