-- ==== Sys2Proof/Laws/Step.lean ====
section
/-! SUPPORT. Once, everything a step can do, everything a fetch and an interrupt entry can do, and what a law of the board says of
every step. -/

namespace Sys2Proof.Machine

/-! ## The step -/

/-- All that a completed step can be: one of the cases of R425. -/
theorem step_cases (s t : State) (h : step s = .next t) :
    (s.arrive.boundary s.input = .reset ∧ t = s.arrive.performReset) ∨
    (s.arrive.boundary s.input = .externalGrant ∧ ∃ b,
      s.arrive.board.masterAccesses s.arrive.tick s.input.master = .ok b ∧
      t = { s.arrive with board := { b with log := .busGrant :: b.log } }) ∨
    (∃ n, s.arrive.boundary s.input = .dmaGrant n ∧ ∃ b, s.arrive.board.dmaByte s.arrive.tick n = .ok b ∧
      t = { s.arrive with board := { b with log := .busGrant :: b.log } }) ∨
    (s.arrive.boundary s.input = .nmi ∧ s.arrive.resume.takeNmi = .next t) ∨
    (s.arrive.boundary s.input = .int ∧ s.arrive.resume.takeInt s.input.ack = .next t) ∨
    (s.arrive.boundary s.input = .idle ∧ s.arrive.resume.idle = .next t) ∨
    (s.arrive.boundary s.input = .run ∧ s.arrive.resume.runInstruction = .next t) := by
  unfold step State.carryOut at h
  cases hc : s.arrive.boundary s.input <;> rw [hc] at h <;> dsimp only at h
  case masterWithoutBus => cases h
  case reset => cases h; exact .inl ⟨rfl, rfl⟩
  case externalGrant =>
    unfold State.withBoard at h
    split at h <;> cases h
    exact .inr (.inl ⟨rfl, _, by assumption, rfl⟩)
  case dmaGrant n =>
    unfold State.withBoard at h
    split at h <;> cases h
    exact .inr (.inr (.inl ⟨n, rfl, _, by assumption, rfl⟩))
  case nmi => exact .inr (.inr (.inr (.inl ⟨rfl, h⟩)))
  case int => exact .inr (.inr (.inr (.inr (.inl ⟨rfl, h⟩))))
  case idle => exact .inr (.inr (.inr (.inr (.inr (.inl ⟨rfl, h⟩)))))
  case run => exact .inr (.inr (.inr (.inr (.inr (.inr ⟨rfl, h⟩)))))

/-- Which operation carries out each case of the CPU's own (R425). -/
theorem step_eq (s : State) :
    (s.arrive.boundary s.input = .nmi → step s = s.arrive.resume.takeNmi) ∧
    (s.arrive.boundary s.input = .int → step s = s.arrive.resume.takeInt s.input.ack) ∧
    (s.arrive.boundary s.input = .idle → step s = s.arrive.resume.idle) ∧
    (s.arrive.boundary s.input = .run → step s = s.arrive.resume.runInstruction) := by
  unfold step State.carryOut
  refine ⟨?_, ?_, ?_, ?_⟩ <;> intro h <;> rw [h] <;> rfl

/-- Every state has the form of its arrival: the CPU's own state does not change (R425). -/
theorem State.arrive_eq (s : State) : s.arrive = { s with
    inputs := s.inputs.tail, nmiPending := s.nmiPending || s.input.nmi, board := s.arrive.board, gaps := s.input.between
    tick := s.tick + 1 } := rfl

/-! ## M1 cycles and the fetch -/

/-- What goes on after an M1 cycle goes on from a state in which only the board may differ (R542). -/
theorem State.afterM1_cases (s : State) (k : State → Result) :
    (∃ b, s.board.transparentByte s.tick = .ok b ∧ s.afterM1 k = k { s with board := b }) ∨
    ∃ e, s.board.transparentByte s.tick = .error e ∧ s.afterM1 k = .refused e := by
  unfold State.afterM1
  split
  · exact .inl ⟨_, by assumption, rfl⟩
  · exact .inr ⟨_, by assumption, rfl⟩

theorem State.afterM1_ok (s u : State) (k : State → Result) (h : AfterM1 s u) : s.afterM1 k = k u := by
  obtain ⟨b, hb, rfl⟩ := h
  simp only [State.afterM1, hb]

/-- With no DMA on the board nothing happens in the refresh time. -/
theorem State.afterM1_no_dma (s : State) (h : s.board.dmas = []) : AfterM1 s s :=
  ⟨s.board, s.board.transparentByte_no_dma s.tick h, rfl⟩

/-- Where memory answers, a fetch returns its content and changes nothing (R62). -/
theorem State.fetchCycle_memory (s : State) (a : Word) (h : s.board.isDevice a = false) :
    s.fetchCycle a = (s.fetchByte a, s) := by
  rcases s.board.memRead_cases s.tick .fetch a with ⟨hd, -⟩ | ⟨-, e⟩
  · rw [h] at hd; cases hd
  · simp only [State.fetchCycle, State.fetchByte, e]

theorem isPrefix_iff (v : Byte) : isPrefix v = true ↔ v ∈ [0xCB#8, 0xDD#8, 0xED#8, 0xFD#8] := by
  revert v; decide

/-- One more byte of an instruction, after its gap (R92). -/
theorem State.fetchNext_ok (s g u : State) (got : List Byte) (k : Byte → State → Result) (h : s.gap = .ok g)
    (hu : if got.length = 1 ∧ got.headD 0#8 ∈ [0xCB#8, 0xDD#8, 0xED#8, 0xFD#8]
      then AfterM1 (g.fetchCycle (g.pc + BitVec.ofNat 16 got.length)).2 u
      else u = (g.fetchCycle (g.pc + BitVec.ofNat 16 got.length)).2) :
    s.fetchNext got k = k (g.fetchCycle (g.pc + BitVec.ofNat 16 got.length)).1 u := by
  rw [State.fetchNext, s.cycle_ok g _ h]
  dsimp only
  simp only [isPrefix_iff]
  split
  · rename_i hp; rw [if_pos hp] at hu; exact State.afterM1_ok _ _ _ hu
  · rename_i hp; rw [if_neg hp] at hu; rw [hu]

/-- What a fetch does at each number of bytes: it runs the instruction that they are after its internal cycles, stops at bytes that
none begins with, or fetches one more (R92, R118). -/
theorem State.fetchRest_cases (more : Nat) (got : List Byte) (s : State) :
    (∀ i rest, decode got = .ok (i, rest) → State.fetchRest (more + 1) got s =
      s.internal (internalCycles (s.jumpsRelative i) i) fun t => exec i (t.fetched i)) ∧
    (∀ bytes, decode got = .error (.unspecified bytes) →
      State.fetchRest (more + 1) got s = .fault (.unspecifiedOpcode bytes)) ∧
    (∀ bytes, decode got = .error (.truncated bytes) →
      State.fetchRest (more + 1) got s = s.fetchNext got fun v t => State.fetchRest more (got ++ [v]) t) := by
  refine ⟨fun i rest h => ?_, fun bytes h => ?_, fun bytes h => ?_⟩ <;> simp only [State.fetchRest, h]

/-! ## The operations of one family -/

/-- An exchange with the top of the stack in its four machine cycles (R188). -/
theorem State.exchangeTop_ok (s m n p q : State) (w : Word) (k : Word → State → Result) (h₁ : s.gap = .ok m)
    (h₂ : (m.memRead s.sp).2.gap = .ok n) (h₃ : (n.memRead (s.sp + 1#16)).2.gap = .ok p)
    (h₄ : (p.write (s.sp + 1#16) (hi w)).gap = .ok q) :
    s.exchangeTop w k = k (word (n.memRead (s.sp + 1#16)).1 (m.memRead s.sp).1) (q.write s.sp (lo w)) :=
  (s.readWordThen_ok m n _ _ h₁ h₂).trans ((State.writeThen_ok _ p _ _ _ h₃).trans (State.writeThen_ok _ q _ _ _ h₄))

/-- RLD and RRD in their three machine cycles, the second internal (R291, R292, R595). -/
theorem State.rotateDigits_ok (s m p n : State) (pair : Byte → Byte → Byte × Byte) (h : s.gap = .ok m)
    (hp : (m.memRead s.hl).2.gap = .ok p) (h' : p.gap = .ok n) :
    s.rotateDigits pair = finish ((n.write s.hl (pair s.regs.a (m.memRead s.hl).1).2).setAF
      ((pair s.regs.a (m.memRead s.hl).1).1, parityFlags s.unspec s.regs.f (pair s.regs.a (m.memRead s.hl).1).1)) :=
  (s.readThen_ok m _ _ h).trans
    ((State.internal_ok _ p 1 _ ⟨p, hp, rfl⟩).trans (State.writeThen_ok _ n _ _ _ h'))

/-! ## Interrupt entries -/

/-- An interrupt entry pushes PC and goes to its target, and changes nothing else (R426, R437, R438). -/
theorem State.enter_ok (s m n : State) (target : Word) (h : s.gap = .ok m) (h' : (m.write (s.sp - 1#16) (hi s.pc)).gap = .ok n) :
    s.enter target = .next { n.write (s.sp - 2#16) (lo s.pc) with pc := target, sp := s.sp - 2#16 } :=
  s.pushThen_ok m n _ _ h h'

/-- An operand cycle of a supplied CALL takes the host's next byte; with none the step is refused (R437, R470). -/
theorem State.operandThen_ok (s m : State) (k : Byte → List Byte → State → Result) (h : s.gap = .ok m) :
    (∀ v rest, s.operandThen (v :: rest) k = k v rest m) ∧ s.operandThen [] k = .refused .mode0CallWithoutOperands :=
  ⟨fun _ _ => s.cycle_ok m _ h, s.cycle_ok m _ h⟩

/-- What each mode does with the byte of the acknowledge (R437, R438, R440). -/
theorem State.serveInt_cases (s : State) (v : Byte) (ops : List Byte) :
    (s.im = .im0 → v &&& 0xC7#8 = 0xC7#8 → s.serveInt v ops = s.enter (word 0#8 (v &&& 0x38#8))) ∧
    (s.im = .im0 → v = 0xCD#8 →
      s.serveInt v ops =
        s.operandThen ops fun opLo more t => t.operandThen more fun opHi _ u => u.enter (word opHi opLo)) ∧
    (s.im = .im0 → v &&& 0xC7#8 ≠ 0xC7#8 → v ≠ 0xCD#8 →
      s.serveInt v ops = .refused (.mode0InstructionNotRstOrCall v)) ∧
    (s.im = .im1 → s.serveInt v ops = s.enter 0x0038#16) ∧
    (s.im = .im2 → v.getLsbD 0 = false → s.serveInt v ops = s.enterByTable v) ∧
    (s.im = .im2 → v.getLsbD 0 = true → s.serveInt v ops = .refused (.oddMode2Vector v)) := by
  unfold State.serveInt
  refine ⟨fun h hv => ?_, fun h hv => ?_, fun h hv hc => ?_, fun h => ?_, fun h hv => ?_, fun h hv => ?_⟩ <;>
    rw [h] <;> dsimp only
  · rw [if_pos hv]
  · subst hv; rfl
  · rw [if_neg hv, if_neg hc]
  · rw [if_neg (by rw [hv]; exact Bool.false_ne_true)]
  · rw [if_pos hv]

/-- What a fetch changes: PC and R (R38, R92). -/
theorem State.fetched_eq (s : State) (i : Instr) :
    s.fetched i = { s with pc := s.pc + BitVec.ofNat 16 (encode i).length, r := refresh s.r i.m1Cycles } := rfl

/-- The M1 counting keeps bit 7 of R (R38). -/
theorem refresh_bit7 (r : Byte) (n : Nat) : refresh r n &&& 0x80#8 = r &&& 0x80#8 := by
  unfold refresh
  generalize r + BitVec.ofNat 8 n = q
  ext k hk
  simp only [BitVec.getElem_and, BitVec.getElem_or]
  cases hb : (0x80#8)[k]
  · simp
  · have : (0x7F#8)[k] = false := by
      revert hb; revert k; decide
    simp [this]

/-! ## What a law of the board says of every step

`b` stands for the board at the start; each operation that goes on from a state whose board has the relation to `b` ends in such
states. -/

section
variable {R : Board → Board → Prop} (law : Board.Law R)
include law

theorem Board.Law.gap (s m : State) (h : s.gap = .ok m) : R s.board m.board := by
  rcases s.gap_cases with ⟨-, e⟩ | ⟨g, rest, b, -, hb, ⟨e', e⟩ | ⟨-, e⟩ | ⟨-, c, hc, e⟩⟩ <;> rw [e] at h <;> cases h
  · exact law.refl _
  · exact law.trans (law.trans (law.events _ _ _) (hb ▸ law.pollDmas _)) (law.release _ _ _ _ hc)

theorem Board.Law.gapReset (s t : State) (h : s.gap = .error (.next t)) : R s.board t.board := by
  rcases s.gap_cases with ⟨-, e⟩ | ⟨g, rest, b, -, hb, ⟨e', e⟩ | ⟨-, e⟩ | ⟨-, c, -, e⟩⟩ <;> rw [e] at h <;> cases h
  exact law.trans (law.trans (law.events _ _ _) (hb ▸ law.pollDmas _)) (law.overlay _)

variable {b : Board}

theorem Board.Law.cycle {s : State} {k : State → Result} (hs : R b s.board)
    (hk : ∀ m, R b m.board → Every (fun t => R b t.board) (k m)) : Every (fun t => R b t.board) (s.cycle k) :=
  .cycle (fun t h => law.trans hs (law.gapReset s t h)) fun m h => hk m (law.trans hs (law.gap s m h))

theorem Board.Law.readThen {s : State} {a : Word} {k : Byte → State → Result} (hs : R b s.board)
    (hk : ∀ v m, R b m.board → Every (fun t => R b t.board) (k v m)) : Every (fun t => R b t.board) (s.readThen a k) :=
  law.cycle hs fun _ h => hk _ _ (law.trans h (law.memRead _ _ _ _))

theorem Board.Law.writeThen {s : State} {a : Word} {v : Byte} {k : State → Result} (hs : R b s.board)
    (hk : ∀ m, R b m.board → Every (fun t => R b t.board) (k m)) : Every (fun t => R b t.board) (s.writeThen a v k) :=
  law.cycle hs fun _ h => hk _ (law.trans h (law.poke _ _ _))

theorem Board.Law.readWordThen {s : State} {a : Word} {k : Word → State → Result} (hs : R b s.board)
    (hk : ∀ w m, R b m.board → Every (fun t => R b t.board) (k w m)) : Every (fun t => R b t.board) (s.readWordThen a k) :=
  law.readThen hs fun _ _ h => law.readThen h fun _ _ h' => hk _ _ h'

theorem Board.Law.writeWordThen {s : State} {a w : Word} {k : State → Result} (hs : R b s.board)
    (hk : ∀ m, R b m.board → Every (fun t => R b t.board) (k m)) : Every (fun t => R b t.board) (s.writeWordThen a w k) :=
  law.writeThen hs fun _ h => law.writeThen h hk

theorem Board.Law.pushThen {s : State} {w : Word} {k : State → Result} (hs : R b s.board)
    (hk : ∀ m, R b m.board → Every (fun t => R b t.board) (k m)) : Every (fun t => R b t.board) (s.pushThen w k) :=
  law.writeThen hs fun _ h => law.writeThen h fun _ h' => hk _ h'

theorem Board.Law.popThen {s : State} {k : Word → State → Result} (hs : R b s.board)
    (hk : ∀ w m, R b m.board → Every (fun t => R b t.board) (k w m)) : Every (fun t => R b t.board) (s.popThen k) :=
  law.readWordThen hs fun _ _ h => hk _ _ h

theorem Board.Law.portReadThen {s : State} {port : Word} {k : Byte → State → Result} (hs : R b s.board)
    (hk : ∀ v m, R b m.board → Every (fun t => R b t.board) (k v m)) : Every (fun t => R b t.board) (s.portReadThen port k) :=
  law.cycle hs fun _ h => hk _ _ (law.trans h (law.ioRead _ _ _))

theorem Board.Law.portWriteThen {s : State} {port : Word} {v : Byte} {k : State → Result} (hs : R b s.board)
    (hk : ∀ m, R b m.board → Every (fun t => R b t.board) (k m)) : Every (fun t => R b t.board) (s.portWriteThen port v k) := by
  refine law.cycle hs fun m h => ?_
  split
  · rename_i c hc; exact hk _ (law.trans h (law.ioWrite _ _ _ _ c hc))
  · exact .refused

theorem Board.Law.internal {s : State} (n : Nat) {k : State → Result} (hs : R b s.board)
    (hk : ∀ m, R b m.board → Every (fun t => R b t.board) (k m)) : Every (fun t => R b t.board) (s.internal n k) := by
  induction n generalizing s with
  | zero => exact hk _ hs
  | succ n ih => exact law.cycle hs fun _ h => ih h

theorem Board.Law.afterM1 {s : State} {k : State → Result} (hs : R b s.board)
    (hk : ∀ m, R b m.board → Every (fun t => R b t.board) (k m)) : Every (fun t => R b t.board) (s.afterM1 k) := by
  rcases s.afterM1_cases k with ⟨c, hc, e⟩ | ⟨e', -, e⟩ <;> rw [e]
  · exact hk _ (law.trans hs (law.transparentByte _ c _ hc))
  · exact .refused

theorem Board.Law.modify {s : State} {a : Word} {g : Flags → Flags → Byte → Byte × Flags} (hs : R b s.board) :
    Every (fun t => R b t.board) (s.modify a g) :=
  law.readThen hs fun _ _ h => law.writeThen h fun _ h' => .finish h'

theorem Board.Law.rewrite {s : State} {a : Word} {g : Byte → Byte} (hs : R b s.board) :
    Every (fun t => R b t.board) (s.rewrite a g) := law.readThen hs fun _ _ h => law.writeThen h fun _ h' => .finish h'

theorem Board.Law.call {s : State} {target : Word} (hs : R b s.board) : Every (fun t => R b t.board) (s.call target) :=
  law.pushThen hs fun _ h => .finish h

theorem Board.Law.ret {s : State} (hs : R b s.board) : Every (fun t => R b t.board) s.ret :=
  law.popThen hs fun _ _ h => .finish h

theorem Board.Law.blockTransfer {s : State} {down again : Bool} (hs : R b s.board) :
    Every (fun t => R b t.board) (s.blockTransfer down again) :=
  law.readThen hs fun _ _ h => law.writeThen h fun _ h => law.internal _ h fun _ h => .finish (by simpa using h)

theorem Board.Law.blockSearch {s : State} {down repeats : Bool} (hs : R b s.board) :
    Every (fun t => R b t.board) (s.blockSearch down repeats) :=
  law.readThen hs fun _ _ h => law.internal _ h fun _ h => .finish (by simpa using h)

theorem Board.Law.blockInput {s : State} {down again : Bool} (hs : R b s.board) :
    Every (fun t => R b t.board) (s.blockInput down again) :=
  law.portReadThen hs fun _ _ h => law.writeThen h fun _ h => law.internal _ h fun _ h => .finish (by simpa using h)

theorem Board.Law.blockOutput {s : State} {down again : Bool} (hs : R b s.board) :
    Every (fun t => R b t.board) (s.blockOutput down again) :=
  law.readThen hs fun _ _ h => law.portWriteThen h fun _ h => law.internal _ h fun _ h => .finish (by simpa using h)

theorem Board.Law.exchangeTop {s : State} {w : Word} {k : Word → State → Result} (hs : R b s.board)
    (hk : ∀ w m, R b m.board → Every (fun t => R b t.board) (k w m)) : Every (fun t => R b t.board) (s.exchangeTop w k) :=
  law.readWordThen hs fun _ _ h => law.writeThen h fun _ h => law.writeThen h fun _ h => hk _ _ h

theorem Board.Law.rotateDigits {s : State} {g : Byte → Byte → Byte × Byte} (hs : R b s.board) :
    Every (fun t => R b t.board) (s.rotateDigits g) :=
      law.readThen hs fun _ _ h => law.internal _ h fun _ h => law.writeThen h fun _ h => .finish h

/-- A law of the board holds over every instruction. -/
theorem Board.Law.exec (i : Instr) {s : State} (hs : R b s.board) : Every (fun t => R b t.board) (exec i s) := by
  cases i <;> dsimp only [Sys2Proof.Machine.exec]
  case ldRR | ldRN | ldAI | ldAR | ldIA | ldRA | ldDdNn | ldIxNn | ldIyNn | ldSpHl | ldSpIx | ldSpIy | exDeHl | exAfAf | exx |
      addAR | addAN | adcAR | adcAN | subR | subN | sbcAR | sbcAN | andR | andN | xorR | xorN | orR | orN | cpR | cpN | incR | decR
      | daa | cpl | neg | ccf | scf | addHlSs | addIxPp | addIyRr | adcHlSs | sbcHlSs | incSs | incIx | incIy | decSs | decIx |
      decIy | rlca | rrca | rla | rra | rlcR | rrcR | rlR | rrR | slaR | sraR | srlR | bitR | setR | resR | jpNn | jpCcNn | jpHl |
      jpIx | jpIy | jrE | jrNz | jrZ | jrNc | jrC | djnz | nop | halt | di | im0 | im1 | im2 =>
    exact .finish (by simpa [State.accumulate, State.modifyReg, State.testBit] using hs)
  case ldRHl | ldRIx | ldRIy | ldABc | ldADe | ldAMem | addAHl | addAIx | addAIy | adcAHl | adcAIx | adcAIy | subHl | subIx |
      subIy | sbcAHl | sbcAIx | sbcAIy | andHl | andIx | andIy | xorHl | xorIx | xorIy | orHl | orIx | orIy | cpHl | cpIx | cpIy |
      bitHl | bitIx | bitIy =>
    refine law.readThen hs fun _ _ h => ?_
    exact .finish (by simpa [State.accumulate, State.testBit] using h)
  case ldHlR | ldIxR | ldIyR | ldHlN | ldIxN | ldIyN | ldBcA | ldDeA | ldMemA =>
    exact law.writeThen hs fun _ h => .finish h
  case ldHlMem | ldDdMem | ldIxMem | ldIyMem =>
    refine law.readWordThen hs fun _ _ h => ?_
    exact .finish (by simpa using h)
  case ldMemHl | ldMemDd | ldMemIx | ldMemIy =>
    exact law.writeWordThen hs fun _ h => .finish h
  case pushQq | pushIx | pushIy =>
    exact law.pushThen hs fun _ h => .finish h
  case popQq | popIx | popIy =>
    refine law.popThen hs fun _ _ h => ?_
    exact .finish (by simpa using h)
  case exSpHl | exSpIx | exSpIy =>
    refine law.exchangeTop hs fun _ _ h => ?_
    exact .finish h
  case ldi | ldd | ldir | lddr =>
    exact law.blockTransfer hs
  case cpi | cpd | cpir | cpdr =>
    exact law.blockSearch hs
  case ini | ind | inir | indr =>
    exact law.blockInput hs
  case outi | outd | otir | otdr =>
    exact law.blockOutput hs
  case incHl | incIxd | incIyd | decHl | decIxd | decIyd | rlcHl | rlcIx | rlcIy | rrcHl | rrcIx | rrcIy | rlHl | rlIx | rlIy |
      rrHl | rrIx | rrIy | slaHl | slaIx | slaIy | sraHl | sraIx | sraIy | srlHl | srlIx | srlIy =>
    exact law.modify hs
  case setHl | setIx | setIy | resHl | resIx | resIy =>
    exact law.rewrite hs
  case callNn | rstP =>
    exact law.call hs
  case ret =>
    exact law.ret hs
  case inAN | inRC =>
    refine law.portReadThen hs fun _ _ h => ?_
    exact .finish (by simpa using h)
  case outNA | outCR =>
    exact law.portWriteThen hs fun _ h => .finish h
  case rld | rrd =>
    exact law.rotateDigits hs
  case callCcNn =>
    unfold execCallCcNn
    split
    · exact law.call hs
    · exact .finish hs
  case retCc =>
    unfold execRetCc
    split
    · exact law.ret hs
    · exact .finish hs
  case reti =>
    exact law.ret (law.trans hs (law.notifyReti _))
  case retn =>
    exact law.ret hs
  case ei =>
    exact .next hs

/-- A law of the board holds over the fetch of an instruction and the instruction (R92). -/
theorem Board.Law.fetchRest (more : Nat) (got : List Byte) {s : State} (hs : R b s.board) :
    Every (fun t => R b t.board) (State.fetchRest more got s) := by
  induction more generalizing got s with
  | zero => exact .fault
  | succ more ih =>
    unfold State.fetchRest
    split
    · exact law.internal _ hs fun _ h => law.exec _ h
    · exact .fault
    · refine law.cycle hs fun m h => ?_
      dsimp only
      split
      · exact law.afterM1 (law.trans h (law.memRead _ _ _ _)) fun _ h => ih _ h
      · exact ih _ (law.trans h (law.memRead _ _ _ _))

theorem Board.Law.enter {s : State} {target : Word} (hs : R b s.board) : Every (fun t => R b t.board) (s.enter target) :=
  law.pushThen hs fun _ h => .next h

theorem Board.Law.operandThen {s : State} {ops : List Byte} {k : Byte → List Byte → State → Result} (hs : R b s.board)
    (hk : ∀ v rest u, R b u.board → Every (fun t => R b t.board) (k v rest u)) :
    Every (fun t => R b t.board) (s.operandThen ops k) :=
  law.cycle hs fun t h => by
    cases ops with
    | nil => exact .refused
    | cons v rest => exact hk v rest t h

/-- A law of the board holds over an interrupt entry in each mode (R437, R438, R440). -/
theorem Board.Law.serveInt {s : State} {v : Byte} {ops : List Byte} (hs : R b s.board) :
    Every (fun t => R b t.board) (s.serveInt v ops) := by
  unfold State.serveInt
  split
  · split
    · exact law.enter hs
    · split
      · exact law.operandThen hs fun _ _ _ h => law.operandThen h fun _ _ _ h => law.enter h
      · exact .refused
  · exact law.enter hs
  · split
    · exact .refused
    · exact law.pushThen hs fun _ h => law.readWordThen h fun _ _ h => .next h

theorem Board.Law.intAck {s : State} {ack : List Byte} (hs : R b s.board) : R b (s.intAck ack).2.2.board := by
  unfold State.intAck
  split
  · exact law.trans (law.trans hs (law.acknowledge _ _)) (law.dmas _ _ _ _)
  · exact law.trans hs (law.dmas _ _ _ _)

theorem Board.Law.takeNmi {s : State} (hs : R b s.board) : Every (fun t => R b t.board) s.takeNmi :=
  law.afterM1 (law.trans hs (law.memRead _ _ _ _)) fun _ h => law.enter h

theorem Board.Law.takeInt {s : State} {ack : List Byte} (hs : R b s.board) :
    Every (fun t => R b t.board) (s.takeInt ack) :=
  law.afterM1 (law.intAck (s := s.respondInt) hs) fun _ h => law.serveInt h

theorem Board.Law.idle {s : State} (hs : R b s.board) : Every (fun t => R b t.board) s.idle :=
  law.afterM1 hs fun _ h => .next h

theorem Board.Law.runInstruction {s : State} (hs : R b s.board) : Every (fun t => R b t.board) s.runInstruction := by
  unfold State.runInstruction State.fetchFirst
  refine law.afterM1 (law.trans hs (law.memRead s.board _ _ _)) fun u h => ?_
  exact law.fetchRest 4 _ h

/-- A law of the board holds over every step. -/
theorem Board.Law.step (s t : State) (h : step s = .next t) : R s.board t.board := by
  have ha : R s.board s.arrive.board := law.trans (law.events _ _ _) (law.pollDmas _)
  have hr : R s.board s.arrive.resume.board := law.trans ha (law.dmas _ _ _ _)
  rcases step_cases s t h with ⟨-, rfl⟩ | ⟨-, c, hc, rfl⟩ | ⟨n, -, c, hc, rfl⟩ | ⟨-, h⟩ | ⟨-, h⟩ | ⟨-, h⟩ | ⟨-, h⟩
  · exact law.trans ha (law.overlay _)
  · exact law.trans (law.trans ha (law.masterAccesses _ c _ _ hc)) (law.dmas _ _ _ _)
  · exact law.trans (law.trans ha (law.dmaByte _ c _ n hc)) (law.dmas _ _ _ _)
  · exact law.takeNmi hr t h
  · exact law.takeInt hr t h
  · exact law.idle hr t h
  · exact law.runInstruction hr t h

end

end Sys2Proof.Machine
end

