-- ==== Sys2Proof/Machine/Platforms.lean ====
section
/-! DEFINITION. The example platforms of the book, as values of the platform parameters (R70, R565 to R575). None is the platform
of the spec; where a figure is lost, what its text gives is modelled (DESIGN CHOICE, log entry 11). -/

namespace Sys2Proof.Machine

/-- A memory chip at a block of addresses: `size` is a power of two that divides `start`. -/
def chipAt (start size base : Nat) (kind : MemKind) : Region :=
  { mask := BitVec.ofNat 16 (65536 - size), select := BitVec.ofNat 16 start, kind := kind, base := base
    within := BitVec.ofNat 16 (size - 1) }

/-- A device at one 8-bit port number: the upper address byte is not decoded (R61). -/
def portAt (port : Nat) (target : PortTarget) : PortEntry :=
  { mask := 0x00FF#16, select := BitVec.ofNat 16 port, target := target }

/-- obr. 39: 1 KB ROM and 1 KB RAM, selected by A10 alone, mirrored every 2 KB (R565 a). -/
def memmapObr39 : List Region :=
  [{ mask := 0x0400#16, select := 0x0000#16, kind := .rom, base := 0, within := 0x03FF#16 },
   { mask := 0x0400#16, select := 0x0400#16, kind := .ram, base := 0x400, within := 0x03FF#16 }]

/-- obr. 42: program memory of 4 KB or of 2 KB, selected by A12 = 0, and 1 KB RAM by A12 = 1; A13 to A15 are not decoded (R565 d). That
2 KB repeat through the 4 KB that A12 selects is the model's (DESIGN CHOICE, log entry 11). -/
def memmapObr42 (fourKb : Bool) : List Region :=
  [{ mask := 0x1000#16, select := 0x0000#16, kind := .rom, base := 0, within := if fourKb then 0x0FFF#16 else 0x07FF#16 },
   { mask := 0x1000#16, select := 0x1000#16, kind := .ram, base := 0x1000, within := 0x03FF#16 }]

/-- obr. 40: sixteen 1 KB blocks selected by A10 to A13, mirrored by A14 and A15; block `io` selects the I/O interface, which is the
host's device in memory space, and `kind` says what sits in the others (R565 b). -/
def memmapObr40 (io : Nat) (kind : Nat → Option MemKind) : List Region :=
  (List.range 16).filterMap fun k =>
    (if k = io then some .device else kind k).map fun kd =>
      { mask := 0x3C00#16, select := BitVec.ofNat 16 (0x400 * k), kind := kd, base := 0x400 * k, within := 0x03FF#16 }

/-- obr. 41: the 4 KB RAM board, set by its switches to the 4 KB block `k`, fully decoded (R565 c). -/
def memmapObr41 (k : Nat) : List Region :=
  [{ mask := 0xF000#16, select := BitVec.ofNat 16 (0x1000 * k), kind := .ram, base := 0x1000 * k, within := 0x0FFF#16 }]

/-- obr. 28: 2 KB ROM at A11 = 0, and the COMBO's 256 bytes of RAM at A11 = 1, of which 64 can be protected against writing (R558,
R566); that these are the lowest 64 is chosen (DESIGN CHOICE, log entry 11). -/
def memmapObr28 : List Region :=
  [{ mask := 0x0800#16, select := 0x0000#16, kind := .rom, base := 0, within := 0x07FF#16 },
   { mask := 0x08C0#16, select := 0x0800#16, kind := .guardedRam, base := 0x800, within := 0x003F#16 },
   { mask := 0x0800#16, select := 0x0800#16, kind := .ram, base := 0x800, within := 0x00FF#16 }]

/-- A device at the ports whose bits in `mask` are those of `port`. -/
def portWhere (mask port : Nat) (target : PortTarget) : PortEntry :=
  { mask := BitVec.ofNat 16 mask, select := BitVec.ofNat 16 port, target := target }

/-- The COMBO system of obr. 28 (R566): A4 enables the COMBO's registers in the I/O space, which are the host's device (R558); that
the active level is 1 is chosen (DESIGN CHOICE, log entry 11). -/
def Board.obr28 : Board :=
  { Board.flatRam with memmap := memmapObr28, iomap := [portWhere 0x0010 0x0010 .external] }

/-- The small system of obr. 23 (R567): RAM, two PIOs and a CTC, all in one chain. The CTC is addressed by A0 and A1 and enabled by
A2; that the PIOs are enabled by A3 and A4, that the levels are 1, the order of the chain, and 64 KB of RAM are chosen, because the
figure is lost (DESIGN CHOICE, log entry 11). -/
def Board.obr23 : Board :=
  { Board.flatRam with
    iomap :=
      [portWhere 0x07 0x04 (.ctc 0 0), portWhere 0x07 0x05 (.ctc 0 1), portWhere 0x07 0x06 (.ctc 0 2),
       portWhere 0x07 0x07 (.ctc 0 3),
       portWhere 0x0B 0x08 (.pio 0 false false), portWhere 0x0B 0x09 (.pio 0 false true),
       portWhere 0x0B 0x0A (.pio 0 true false), portWhere 0x0B 0x0B (.pio 0 true true),
       portWhere 0x13 0x10 (.pio 1 false false), portWhere 0x13 0x11 (.pio 1 false true),
       portWhere 0x13 0x12 (.pio 1 true false), portWhere 0x13 0x13 (.pio 1 true true)]
    pios := [Pio.powerOn, Pio.powerOn]
    ctcs := [Ctc.powerOn]
    chain := [.pio 0, .pio 1, .ctc 0] }

/-- The school computer of obr. 73 (R575): 1 KB EPROM at 0000H and 1 KB RAM after it, selected by A10 to A12 with A13 to A15 not
decoded; every port reaches its 8255, which is the host's device. The addresses are chosen, because the figure is lost (DESIGN
CHOICE, log entry 11). -/
def Board.school : Board :=
  { Board.flatRam with
    memmap :=
      [{ mask := 0x1C00#16, select := 0x0000#16, kind := .rom, base := 0, within := 0x03FF#16 },
       { mask := 0x1C00#16, select := 0x0400#16, kind := .ram, base := 0x400, within := 0x03FF#16 }]
    iomap := [portWhere 0x0000 0x0000 .external] }

/-- The ports of a PIO with B/A on A0 and C/D on A1 (R482). -/
def pioPorts (base n : Nat) : List PortEntry :=
  [portAt base (.pio n false false), portAt (base + 1) (.pio n false true),
   portAt (base + 2) (.pio n true false), portAt (base + 3) (.pio n true true)]

/-- The ports of a PIO with C/D on A0 and B/A on A1 (R482, R572). -/
def pioPortsControlOdd (base n : Nat) : List PortEntry :=
  [portAt base (.pio n false false), portAt (base + 1) (.pio n true false),
   portAt (base + 2) (.pio n false true), portAt (base + 3) (.pio n true true)]

/-- The ports of an SIO with C/D on A0 and B/A on A1 (R502, R572). -/
def sioPorts (base n : Nat) : List PortEntry :=
  [portAt base (.sio n false false), portAt (base + 1) (.sio n true false),
   portAt (base + 2) (.sio n false true), portAt (base + 3) (.sio n true true)]

/-- The ports of a CTC with CS0 and CS1 on A0 and A1 (R526). -/
def ctcPorts (base n : Nat) : List PortEntry :=
  [portAt base (.ctc n 0), portAt (base + 1) (.ctc n 1), portAt (base + 2) (.ctc n 2), portAt (base + 3) (.ctc n 3)]

/-- Board 2, the EMUF (R570): EPROM at 0000H and RAM at 8000H, each of 2 KB or of the optional 4 KB, PIO
IO3 at ports 00H to 03H ahead of PIO IO4 at 10H to 13H in the chain. -/
def Board.emuf (eprom4Kb ram4Kb : Bool) : Board :=
  { Board.flatRam with
    memmap :=
      [chipAt 0x0000 (if eprom4Kb then 0x1000 else 0x800) 0x0000 .rom,
       chipAt 0x8000 (if ram4Kb then 0x1000 else 0x800) 0x8000 .ram]
    iomap := pioPorts 0x00 0 ++ pioPorts 0x10 1
    pios := [Pio.powerOn, Pio.powerOn]
    chain := [.pio 0, .pio 1] }

/-- Board 1 (R568): every port number reaches its one input and one output port. The memory addresses are in a lost figure: 1 KB
EPROM at 0000H (R70) and 1 KB RAM after it (DESIGN CHOICE, log entry 11). -/
def Board.board1 : Board :=
  { Board.flatRam with
    memmap := [chipAt 0x0000 0x400 0x0000 .rom, chipAt 0x0400 0x400 0x0400 .ram]
    iomap := [portWhere 0x0000 0x0000 .external] }

/-- Board 3 (R571): 2 KB EPROM, 1 KB RAM at 1000H and at 2000H, selected in steps of 2 KB, so that each RAM repeats once; the ports
are decoded on A2, A3 and A4 only, so that they repeat too. Its Intel peripherals are the host's own devices (00_scope R6). -/
def Board.board3 : Board :=
  { Board.flatRam with
    memmap :=
      [{ mask := 0xF800#16, select := 0x0000#16, kind := .rom, base := 0x0000, within := 0x07FF#16 },
       { mask := 0xF800#16, select := 0x1000#16, kind := .ram, base := 0x1000, within := 0x03FF#16 },
       { mask := 0xF800#16, select := 0x2000#16, kind := .ram, base := 0x2000, within := 0x03FF#16 }]
    iomap := [0x00, 0x04, 0x08, 0x10, 0x14].map fun p => portWhere 0x001C p .external }

/-- The mc-CP/M computer (R572, R586): after a reset the EPROM covers the addresses with A15 = 0 until an I/O read of a port in
4000H to 7FFFH; then all 64 KB are RAM. The jumpers set A4 to A7 of the ports: SIO at 0 to 3 and PIO at 4 to 7 after them; with the
original monitor they are FH. -/
def Board.mcCpm (jumpers : BitVec 4) : Board :=
  { Board.flatRam with
    overlay := some
      { active := true
        regions := [{ mask := 0x8000#16, select := 0x0000#16, kind := .rom, base := 0x10000, within := 0x0FFF#16 }]
        offMask := 0xC000#16, offSelect := 0x4000#16 }
    iomap := sioPorts (16 * jumpers.toNat) 0 ++ pioPortsControlOdd (16 * jumpers.toNat + 4) 0
    sios := [Sio.powerOn]
    pios := [Pio.powerOn]
    chain := [.sio 0, .pio 0] }

end Sys2Proof.Machine
end

