-- ==== Sys2Proof/Tests/Slice0.lean ====
section
/-! SUPPORT. The model's own tests: what WellFormed refuses, decoding of words written out from the opcode table, single steps with
the values of the spec's test vectors (95_test_vectors.md, cited by their numbers), and for each statement with hypotheses a
state and operands that meet them. -/

namespace Sys2Proof.Tests
open Machine

/-! ## WellFormed -/

/-- Each check refuses an ill-formed term: a bit number above 7, a restart address that is no multiple of 8 or above 38H. -/
theorem test_wellFormed_refuses :
    (Instr.bitR 8 .a).wellFormed = false ∧ (Instr.bitHl 8).wellFormed = false ∧ (Instr.bitIx 8 0#8).wellFormed = false ∧
    (Instr.bitIy 8 0#8).wellFormed = false ∧ (Instr.setR 8 .a).wellFormed = false ∧ (Instr.setHl 8).wellFormed = false ∧
    (Instr.setIx 8 0#8).wellFormed = false ∧ (Instr.setIy 8 0#8).wellFormed = false ∧
    (Instr.resR 8 .a).wellFormed = false ∧ (Instr.resHl 8).wellFormed = false ∧ (Instr.resIx 8 0#8).wellFormed = false ∧
    (Instr.resIy 8 0#8).wellFormed = false ∧ (Instr.rstP 0x03#8).wellFormed = false ∧
    (Instr.rstP 0x40#8).wellFormed = false := by decide

/-! ## Decoding: every constructor, from the encoding column of the opcode table -/

/-- Each list of bytes decodes to its instruction, and is what the encoder writes for it. -/
def readsAll (rows : List (List Byte × Instr)) : Bool :=
  rows.all fun (bytes, i) =>
    (match decode bytes with
      | .ok (j, rest) => decide (j = i) && rest.isEmpty
      | .error _ => false) && decide (encode i = bytes)

theorem test_decode_load8 : readsAll [
    ([0b01011101#8], .ldRR .e .l), ([0b00111110#8, 0b10011100#8], .ldRN .a 0x9C#8), ([0b01010110#8], .ldRHl .d),
    ([0b11011101#8, 0b01101110#8, 0b00000101#8], .ldRIx .l 0x05#8),
    ([0b11111101#8, 0b01001110#8, 0b10000000#8], .ldRIy .c 0x80#8), ([0b01110100#8], .ldHlR .h),
    ([0b11011101#8, 0b01110000#8, 0b10000000#8], .ldIxR 0x80#8 .b),
    ([0b11111101#8, 0b01110011#8, 0b00000101#8], .ldIyR 0x05#8 .e), ([0b00110110#8, 0b10011100#8], .ldHlN 0x9C#8),
    ([0b11011101#8, 0b00110110#8, 0b00000101#8, 0b10011100#8], .ldIxN 0x05#8 0x9C#8),
    ([0b11111101#8, 0b00110110#8, 0b10000000#8, 0b10011100#8], .ldIyN 0x80#8 0x9C#8), ([0b00001010#8], .ldABc),
    ([0b00011010#8], .ldADe), ([0b00111010#8, 0b00110100#8, 0b00010010#8], .ldAMem 0x1234#16), ([0b00000010#8], .ldBcA),
    ([0b00010010#8], .ldDeA), ([0b00110010#8, 0b00110100#8, 0b00010010#8], .ldMemA 0x1234#16),
    ([0b11101101#8, 0b01010111#8], .ldAI), ([0b11101101#8, 0b01011111#8], .ldAR), ([0b11101101#8, 0b01000111#8], .ldIA),
    ([0b11101101#8, 0b01001111#8], .ldRA)] = true := by decide

theorem test_decode_load16 : readsAll [
    ([0b00100001#8, 0b00110100#8, 0b00010010#8], .ldDdNn .hl 0x1234#16),
    ([0b11011101#8, 0b00100001#8, 0b00110100#8, 0b00010010#8], .ldIxNn 0x1234#16),
    ([0b11111101#8, 0b00100001#8, 0b00110100#8, 0b00010010#8], .ldIyNn 0x1234#16),
    ([0b00101010#8, 0b00110100#8, 0b00010010#8], .ldHlMem 0x1234#16),
    ([0b11101101#8, 0b01101011#8, 0b00110100#8, 0b00010010#8], .ldDdMem .hl 0x1234#16),
    ([0b11011101#8, 0b00101010#8, 0b00110100#8, 0b00010010#8], .ldIxMem 0x1234#16),
    ([0b11111101#8, 0b00101010#8, 0b00110100#8, 0b00010010#8], .ldIyMem 0x1234#16),
    ([0b00100010#8, 0b00110100#8, 0b00010010#8], .ldMemHl 0x1234#16),
    ([0b11101101#8, 0b01100011#8, 0b00110100#8, 0b00010010#8], .ldMemDd 0x1234#16 .hl),
    ([0b11011101#8, 0b00100010#8, 0b00110100#8, 0b00010010#8], .ldMemIx 0x1234#16),
    ([0b11111101#8, 0b00100010#8, 0b00110100#8, 0b00010010#8], .ldMemIy 0x1234#16), ([0b11111001#8], .ldSpHl),
    ([0b11011101#8, 0b11111001#8], .ldSpIx), ([0b11111101#8, 0b11111001#8], .ldSpIy), ([0b11000101#8], .pushQq .bc),
    ([0b11011101#8, 0b11100101#8], .pushIx), ([0b11111101#8, 0b11100101#8], .pushIy), ([0b11110001#8], .popQq .af),
    ([0b11011101#8, 0b11100001#8], .popIx), ([0b11111101#8, 0b11100001#8], .popIy)] = true := by decide

theorem test_decode_exchange : readsAll [
    ([0b11101011#8], .exDeHl), ([0b00001000#8], .exAfAf), ([0b11011001#8], .exx), ([0b11100011#8], .exSpHl),
    ([0b11011101#8, 0b11100011#8], .exSpIx), ([0b11111101#8, 0b11100011#8], .exSpIy)] = true := by decide

theorem test_decode_block : readsAll [
    ([0b11101101#8, 0b10100000#8], .ldi), ([0b11101101#8, 0b10101000#8], .ldd), ([0b11101101#8, 0b10110000#8], .ldir),
    ([0b11101101#8, 0b10111000#8], .lddr), ([0b11101101#8, 0b10100001#8], .cpi), ([0b11101101#8, 0b10101001#8], .cpd),
    ([0b11101101#8, 0b10110001#8], .cpir), ([0b11101101#8, 0b10111001#8], .cpdr)] = true := by decide

theorem test_decode_arith8 : readsAll [
    ([0b10000000#8], .addAR .b), ([0b11000110#8, 0b10011100#8], .addAN 0x9C#8), ([0b10000110#8], .addAHl),
    ([0b11011101#8, 0b10000110#8, 0b10000000#8], .addAIx 0x80#8),
    ([0b11111101#8, 0b10000110#8, 0b00000101#8], .addAIy 0x05#8), ([0b10001001#8], .adcAR .c),
    ([0b11001110#8, 0b10011100#8], .adcAN 0x9C#8), ([0b10001110#8], .adcAHl),
    ([0b11011101#8, 0b10001110#8, 0b00000101#8], .adcAIx 0x05#8),
    ([0b11111101#8, 0b10001110#8, 0b10000000#8], .adcAIy 0x80#8), ([0b10010010#8], .subR .d),
    ([0b11010110#8, 0b10011100#8], .subN 0x9C#8), ([0b10010110#8], .subHl),
    ([0b11011101#8, 0b10010110#8, 0b10000000#8], .subIx 0x80#8), ([0b11111101#8, 0b10010110#8, 0b00000101#8], .subIy 0x05#8),
    ([0b10011011#8], .sbcAR .e), ([0b11011110#8, 0b10011100#8], .sbcAN 0x9C#8), ([0b10011110#8], .sbcAHl),
    ([0b11011101#8, 0b10011110#8, 0b00000101#8], .sbcAIx 0x05#8),
    ([0b11111101#8, 0b10011110#8, 0b10000000#8], .sbcAIy 0x80#8), ([0b10100100#8], .andR .h),
    ([0b11100110#8, 0b10011100#8], .andN 0x9C#8), ([0b10100110#8], .andHl),
    ([0b11011101#8, 0b10100110#8, 0b10000000#8], .andIx 0x80#8), ([0b11111101#8, 0b10100110#8, 0b00000101#8], .andIy 0x05#8),
    ([0b10101101#8], .xorR .l), ([0b11101110#8, 0b10011100#8], .xorN 0x9C#8), ([0b10101110#8], .xorHl),
    ([0b11011101#8, 0b10101110#8, 0b00000101#8], .xorIx 0x05#8), ([0b11111101#8, 0b10101110#8, 0b10000000#8], .xorIy 0x80#8),
    ([0b10110111#8], .orR .a), ([0b11110110#8, 0b10011100#8], .orN 0x9C#8), ([0b10110110#8], .orHl),
    ([0b11011101#8, 0b10110110#8, 0b10000000#8], .orIx 0x80#8), ([0b11111101#8, 0b10110110#8, 0b00000101#8], .orIy 0x05#8),
    ([0b10111000#8], .cpR .b), ([0b11111110#8, 0b10011100#8], .cpN 0x9C#8), ([0b10111110#8], .cpHl),
    ([0b11011101#8, 0b10111110#8, 0b00000101#8], .cpIx 0x05#8), ([0b11111101#8, 0b10111110#8, 0b10000000#8], .cpIy 0x80#8)] = true := by decide

theorem test_decode_incdec8 : readsAll [
    ([0b00001100#8], .incR .c), ([0b00110100#8], .incHl), ([0b11011101#8, 0b00110100#8, 0b00000101#8], .incIxd 0x05#8),
    ([0b11111101#8, 0b00110100#8, 0b10000000#8], .incIyd 0x80#8), ([0b00111101#8], .decR .a), ([0b00110101#8], .decHl),
    ([0b11011101#8, 0b00110101#8, 0b00000101#8], .decIxd 0x05#8),
    ([0b11111101#8, 0b00110101#8, 0b10000000#8], .decIyd 0x80#8)] = true := by decide

theorem test_decode_misc8 : readsAll [
    ([0b00100111#8], .daa), ([0b00101111#8], .cpl), ([0b11101101#8, 0b01000100#8], .neg), ([0b00111111#8], .ccf),
    ([0b00110111#8], .scf)] = true := by decide

theorem test_decode_arith16 : readsAll [
    ([0b00011001#8], .addHlSs .de), ([0b11011101#8, 0b00101001#8], .addIxPp .ix),
    ([0b11111101#8, 0b00111001#8], .addIyRr .sp), ([0b11101101#8, 0b01001010#8], .adcHlSs .bc),
    ([0b11101101#8, 0b01010010#8], .sbcHlSs .de), ([0b00100011#8], .incSs .hl), ([0b11011101#8, 0b00100011#8], .incIx),
    ([0b11111101#8, 0b00100011#8], .incIy), ([0b00011011#8], .decSs .de), ([0b11011101#8, 0b00101011#8], .decIx),
    ([0b11111101#8, 0b00101011#8], .decIy)] = true := by decide

theorem test_decode_rotate : readsAll [
    ([0b00000111#8], .rlca), ([0b00001111#8], .rrca), ([0b00010111#8], .rla), ([0b00011111#8], .rra),
    ([0b11001011#8, 0b00000001#8], .rlcR .c), ([0b11001011#8, 0b00000110#8], .rlcHl),
    ([0b11011101#8, 0b11001011#8, 0b00000101#8, 0b00000110#8], .rlcIx 0x05#8),
    ([0b11111101#8, 0b11001011#8, 0b10000000#8, 0b00000110#8], .rlcIy 0x80#8), ([0b11001011#8, 0b00001111#8], .rrcR .a),
    ([0b11001011#8, 0b00001110#8], .rrcHl), ([0b11011101#8, 0b11001011#8, 0b00000101#8, 0b00001110#8], .rrcIx 0x05#8),
    ([0b11111101#8, 0b11001011#8, 0b10000000#8, 0b00001110#8], .rrcIy 0x80#8), ([0b11001011#8, 0b00010100#8], .rlR .h),
    ([0b11001011#8, 0b00010110#8], .rlHl), ([0b11011101#8, 0b11001011#8, 0b00000101#8, 0b00010110#8], .rlIx 0x05#8),
    ([0b11111101#8, 0b11001011#8, 0b10000000#8, 0b00010110#8], .rlIy 0x80#8), ([0b11001011#8, 0b00011010#8], .rrR .d),
    ([0b11001011#8, 0b00011110#8], .rrHl), ([0b11011101#8, 0b11001011#8, 0b00000101#8, 0b00011110#8], .rrIx 0x05#8),
    ([0b11111101#8, 0b11001011#8, 0b10000000#8, 0b00011110#8], .rrIy 0x80#8), ([0b11001011#8, 0b00100000#8], .slaR .b),
    ([0b11001011#8, 0b00100110#8], .slaHl), ([0b11011101#8, 0b11001011#8, 0b00000101#8, 0b00100110#8], .slaIx 0x05#8),
    ([0b11111101#8, 0b11001011#8, 0b10000000#8, 0b00100110#8], .slaIy 0x80#8), ([0b11001011#8, 0b00101101#8], .sraR .l),
    ([0b11001011#8, 0b00101110#8], .sraHl), ([0b11011101#8, 0b11001011#8, 0b00000101#8, 0b00101110#8], .sraIx 0x05#8),
    ([0b11111101#8, 0b11001011#8, 0b10000000#8, 0b00101110#8], .sraIy 0x80#8), ([0b11001011#8, 0b00111011#8], .srlR .e),
    ([0b11001011#8, 0b00111110#8], .srlHl), ([0b11011101#8, 0b11001011#8, 0b00000101#8, 0b00111110#8], .srlIx 0x05#8),
    ([0b11111101#8, 0b11001011#8, 0b10000000#8, 0b00111110#8], .srlIy 0x80#8), ([0b11101101#8, 0b01101111#8], .rld),
    ([0b11101101#8, 0b01100111#8], .rrd)] = true := by decide

theorem test_decode_bit : readsAll [
    ([0b11001011#8, 0b01011010#8], .bitR 3 .d), ([0b11001011#8, 0b01000110#8], .bitHl 0),
    ([0b11011101#8, 0b11001011#8, 0b00000101#8, 0b01101110#8], .bitIx 5 0x05#8),
    ([0b11111101#8, 0b11001011#8, 0b10000000#8, 0b01010110#8], .bitIy 2 0x80#8), ([0b11001011#8, 0b11111000#8], .setR 7 .b),
    ([0b11001011#8, 0b11100110#8], .setHl 4), ([0b11011101#8, 0b11001011#8, 0b00000101#8, 0b11001110#8], .setIx 1 0x05#8),
    ([0b11111101#8, 0b11001011#8, 0b10000000#8, 0b11110110#8], .setIy 6 0x80#8), ([0b11001011#8, 0b10011101#8], .resR 3 .l),
    ([0b11001011#8, 0b10000110#8], .resHl 0), ([0b11011101#8, 0b11001011#8, 0b00000101#8, 0b10101110#8], .resIx 5 0x05#8),
    ([0b11111101#8, 0b11001011#8, 0b10000000#8, 0b10010110#8], .resIy 2 0x80#8)] = true := by decide

theorem test_decode_jump : readsAll [
    ([0b11000011#8, 0b00110100#8, 0b00010010#8], .jpNn 0x1234#16),
    ([0b11101010#8, 0b00110100#8, 0b00010010#8], .jpCcNn .pe 0x1234#16), ([0b11101001#8], .jpHl),
    ([0b11011101#8, 0b11101001#8], .jpIx), ([0b11111101#8, 0b11101001#8], .jpIy), ([0b00011000#8, 0b11111110#8], .jrE 0xFE#8),
    ([0b00100000#8, 0b11111110#8], .jrNz 0xFE#8), ([0b00101000#8, 0b11111110#8], .jrZ 0xFE#8),
    ([0b00110000#8, 0b11111110#8], .jrNc 0xFE#8), ([0b00111000#8, 0b11111110#8], .jrC 0xFE#8),
    ([0b00010000#8, 0b11111110#8], .djnz 0xFE#8), ([0b11001101#8, 0b00110100#8, 0b00010010#8], .callNn 0x1234#16),
    ([0b11101100#8, 0b00110100#8, 0b00010010#8], .callCcNn .pe 0x1234#16), ([0b11001001#8], .ret),
    ([0b11101000#8], .retCc .pe), ([0b11101101#8, 0b01001101#8], .reti), ([0b11101101#8, 0b01000101#8], .retn),
    ([0b11101111#8], .rstP 0x28#8)] = true := by decide

theorem test_decode_inout : readsAll [
    ([0b11011011#8, 0b10011100#8], .inAN 0x9C#8), ([0b11101101#8, 0b01010000#8], .inRC .d),
    ([0b11010011#8, 0b10011100#8], .outNA 0x9C#8), ([0b11101101#8, 0b01001001#8], .outCR .c),
    ([0b11101101#8, 0b10100010#8], .ini), ([0b11101101#8, 0b10101010#8], .ind), ([0b11101101#8, 0b10110010#8], .inir),
    ([0b11101101#8, 0b10111010#8], .indr), ([0b11101101#8, 0b10100011#8], .outi), ([0b11101101#8, 0b10101011#8], .outd),
    ([0b11101101#8, 0b10110011#8], .otir), ([0b11101101#8, 0b10111011#8], .otdr)] = true := by decide

theorem test_decode_control : readsAll [
    ([0b00000000#8], .nop), ([0b01110110#8], .halt), ([0b11110011#8], .di), ([0b11111011#8], .ei),
    ([0b11101101#8, 0b01000110#8], .im0), ([0b11101101#8, 0b01010110#8], .im1), ([0b11101101#8, 0b01011110#8], .im2)] = true := by decide

/-- The undefined encodings of V210 to V215 are refused with the bytes that show it. -/
theorem test_decode_undefined :
    decode [0xCB#8, 0x30#8, 0#8, 0#8] = .error (.unspecified [0xCB#8, 0x30#8]) ∧
    decode [0xED#8, 0x00#8, 0#8, 0#8] = .error (.unspecified [0xED#8, 0x00#8]) ∧
    decode [0xED#8, 0x70#8, 0#8, 0#8] = .error (.unspecified [0xED#8, 0x70#8]) ∧
    decode [0xDD#8, 0x00#8, 0#8, 0#8] = .error (.unspecified [0xDD#8, 0x00#8]) ∧
    decode [0xDD#8, 0xDD#8, 0#8, 0#8] = .error (.unspecified [0xDD#8, 0xDD#8]) ∧
    decode [0xDD#8, 0xCB#8, 0x05#8, 0x00#8] = .error (.unspecified [0xDD#8, 0xCB#8, 0x05#8, 0x00#8]) := by decide

/-- A word of the opcode table is read with its first byte in the high bits or in the low bits. -/
theorem test_decode_tableWord :
    decodeTableWord 8 0x53 = some (.ldRR .d .e) ∧ decodeTableWord 24 0xDD7705 = some (.ldIxR 0x05#8 .a) ∧
    decodeTableWord 24 0x0577DD = some (.ldIxR 0x05#8 .a) := by
  decide

/-! ## Single steps -/

/-- The registers at zero, with PC, and the bytes of an instruction at it. -/
def after {α : Type} (s : State) (bytes : List Byte) (g : State → α) : Option α :=
  match step (s.placeBytes s.pc bytes) with
  | .next t => some (g t)
  | _ => none

/-- The reset state at an address, with main registers. -/
def start (pc : Word) (regs : RegFile) : State := { State.reset with pc := pc, regs := regs }

/-- The reset state with the given things between the machine cycles. -/
def between (gaps : List Gap) : State := { State.reset with gaps := gaps }

/-- A gap in which the external master writes a byte. -/
def masterGap (a : Word) (v : Byte) : Gap := { Gap.quiet with busrq := true, master := [.memWrite a v] }

/-- A gap in which RESET comes. -/
def resetGap : Gap := { Gap.quiet with reset := true }

/-- The six flags the tables of 95_test_vectors.md give: S Z H P/V N C. -/
def six (t : State) : List Bool := [t.regs.f.s, t.regs.f.z, t.regs.f.h, t.regs.f.pv, t.regs.f.n, t.regs.f.c]

/-- E1: ADD A,07H with A = A7H. -/
theorem test_step_addAN : after (start 0x0600#16 { RegFile.zero with a := 0xA7#8 }) [0xC6#8, 0x07#8]
    (fun t => (t.regs.a, t.pc, t.r, six t)) =
    some (0xAE#8, 0x0602#16, 0x01#8, [true, false, false, false, false, false]) := by decide

/-- V61: an addition that overflows. -/
theorem test_step_addAN_overflow : after (start 0#16 { RegFile.zero with a := 0x7F#8 }) [0xC6#8, 0x01#8]
    (fun t => (t.regs.a, six t)) = some (0x80#8, [true, false, true, true, false, false]) := by decide

/-- V70: a subtraction with borrow and overflow. -/
theorem test_step_subN : after (start 0#16 { RegFile.zero with a := 0x7F#8 }) [0xD6#8, 0xFF#8]
    (fun t => (t.regs.a, six t)) = some (0x80#8, [true, false, false, true, true, true]) := by decide

/-- V72: SBC A,00H with a borrow. -/
theorem test_step_sbcAN : after (start 0#16 { RegFile.zero with f := { Flags.zero with c := true } }) [0xDE#8, 0x00#8]
    (fun t => (t.regs.a, six t)) = some (0xFF#8, [true, false, true, false, true, true]) := by decide

/-- V73: AND sets H. -/
theorem test_step_andR : after (start 0#16 { RegFile.zero with a := 0xC3#8, b := 0x7B#8 }) [0xA0#8]
    (fun t => (t.regs.a, six t)) = some (0x43#8, [false, false, true, false, false, false]) := by decide

/-- V82: INC keeps C. -/
theorem test_step_incR : after (start 0#16 { RegFile.zero with d := 0x7F#8, f := { Flags.zero with c := true } }) [0x14#8]
    (fun t => (t.regs.d, six t)) = some (0x80#8, [true, false, true, true, false, true]) := by decide

/-- V90: DAA with both corrections. -/
theorem test_step_daa : after (start 0#16 { RegFile.zero with a := 0x9A#8 }) [0x27#8]
    (fun t => (t.regs.a, six t)) = some (0x00#8, [false, true, true, true, false, true]) := by decide

/-- V93: NEG of 80H. -/
theorem test_step_neg : after (start 0#16 { RegFile.zero with a := 0x80#8 }) [0xED#8, 0x44#8]
    (fun t => (t.regs.a, six t)) = some (0x80#8, [true, false, false, true, true, true]) := by decide

/-- E6: LD (IX+5),A stores at 2005H, and R counts two. -/
theorem test_step_ldIxR : after { start 0x1C30#16 { RegFile.zero with a := 0x3F#8 } with ix := 0x2000#16 }
    [0xDD#8, 0x77#8, 0x05#8] (fun t => (t.read 0x2005#16, t.pc, t.r)) = some (0x3F#8, 0x1C33#16, 0x02#8) := by decide

/-- V15: LD A,R shows both counts of its own. -/
theorem test_step_ldAR : after State.reset [0xED#8, 0x5F#8] (fun t => (t.regs.a, six t)) =
    some (0x02#8, [false, false, false, false, false, false]) := by decide

/-- V25: LD (FFFFH),DE wraps to 0000H. -/
theorem test_step_ldMemDd : after (start 0x1000#16 { RegFile.zero with d := 0x12#8, e := 0x34#8 })
    [0xED#8, 0x53#8, 0xFF#8, 0xFF#8] (fun t => (t.read 0xFFFF#16, t.read 0x0000#16)) = some (0x34#8, 0x12#8) := by decide

/-- V28: PUSH BC across the top of memory. -/
theorem test_step_pushQq : after { start 0x1000#16 { RegFile.zero with b := 0xAB#8, c := 0xCD#8 } with sp := 0x0001#16 }
    [0xC5#8] (fun t => (t.read 0x0000#16, t.read 0xFFFF#16, t.sp)) = some (0xAB#8, 0xCD#8, 0xFFFF#16) := by decide

/-- V36: EX (SP),IX. -/
theorem test_step_exSpIx : after
    ({ start 0x1000#16 RegFile.zero with ix := 0x3988#16, sp := 0x0100#16 }.placeBytes 0x0100#16 [0x90#8, 0x48#8])
    [0xDD#8, 0xE3#8] (fun t => (t.ix, t.read 0x0100#16, t.read 0x0101#16, t.sp)) =
    some (0x4890#16, 0x88#8, 0x39#8, 0x0100#16) := by decide

/-- V45, first iteration of LDIR: PC stays at the instruction. -/
theorem test_step_ldir : after
    ((start 0x0200#16 { RegFile.zero with h := 0x11#8, l := 0x11#8, d := 0x22#8, e := 0x22#8, c := 0x03#8 }).placeBytes
      0x1111#16 [0x88#8]) [0xED#8, 0xB0#8]
    (fun t => (t.pc, t.bc, t.read 0x2222#16, t.regs.f.pv)) = some (0x0200#16, 0x0002#16, 0x88#8, true) := by decide

/-- V53, last iteration of CPIR: found in the last byte. -/
theorem test_step_cpir : after ((start 0x0200#16 { RegFile.zero with h := 0x11#8, l := 0x12#8, c := 0x01#8 }).placeBytes
      0x1112#16 [0x00#8]) [0xED#8, 0xB1#8]
    (fun t => (t.pc, t.hl, t.regs.f.z, t.regs.f.pv)) = some (0x0202#16, 0x1113#16, true, false) := by decide

/-- V110: SBC HL,BC with overflow. -/
theorem test_step_sbcHlSs : after (start 0#16 { RegFile.zero with h := 0x80#8, c := 0x01#8 }) [0xED#8, 0x42#8]
    (fun t => (t.hl, t.regs.f.s, t.regs.f.pv, t.regs.f.n, t.regs.f.c)) = some (0x7FFF#16, false, true, true, false) := by
  decide

/-- V132: SRA (IX+3) keeps the sign. -/
theorem test_step_sraIx : after ({ start 0#16 RegFile.zero with ix := 0x1000#16 }.placeBytes 0x1003#16 [0xB8#8])
    [0xDD#8, 0xCB#8, 0x03#8, 0x2E#8] (fun t => (t.read 0x1003#16, t.pc, t.r, six t)) =
    some (0xDC#8, 0x0004#16, 0x02#8, [true, false, false, false, false, false]) := by decide

/-- V136: RLD. -/
theorem test_step_rld : after
    ((start 0#16 { RegFile.zero with a := 0x7A#8, h := 0x50#8, f := { Flags.zero with c := true } }).placeBytes 0x5000#16
      [0x31#8]) [0xED#8, 0x6F#8] (fun t => (t.regs.a, t.read 0x5000#16, six t)) =
    some (0x73#8, 0x1A#8, [false, false, false, false, false, true]) := by decide

/-- V148: RES 0,(IX-16). -/
theorem test_step_resIx : after ({ start 0#16 RegFile.zero with ix := 0x1000#16 }.placeBytes 0x0FF0#16 [0xFF#8])
    [0xDD#8, 0xCB#8, 0xF0#8, 0x86#8] (fun t => t.read 0x0FF0#16) = some 0xFE#8 := by decide

/-- V162: a relative jump wraps. -/
theorem test_step_jrE : after (start 0xFFFE#16 RegFile.zero) [0x18#8, 0x10#8] (fun t => t.pc) = some 0x0010#16 := by decide

/-- V168: DJNZ with B = 0 goes on. -/
theorem test_step_djnz : after (start 0x0480#16 RegFile.zero) [0x10#8, 0xFE#8] (fun t => (t.pc, t.regs.b)) =
    some (0x0480#16, 0xFF#8) := by decide

/-- V169: CALL pushes the address after it, the high byte higher. -/
theorem test_step_callNn : after { start 0x1A47#16 RegFile.zero with sp := 0x3002#16 } [0xCD#8, 0x35#8, 0x21#8]
    (fun t => (t.pc, t.sp, t.read 0x3001#16, t.read 0x3000#16)) = some (0x2135#16, 0x3000#16, 0x1A#8, 0x4A#8) := by decide

/-- V177: RETN copies IFF2 to IFF1. -/
theorem test_step_retn : after
    ({ start 0x3535#16 RegFile.zero with sp := 0x2000#16, iff1 := true }.placeBytes 0x2000#16 [0xB5#8, 0x18#8])
    [0xED#8, 0x45#8] (fun t => (t.pc, t.iff1, t.iff2)) = some (0x18B5#16, false, false) := by decide

/-- A board on which one device of the host's answers every port with the given bytes. -/
def deviceBoard (bytes : List Byte) : Board :=
  { Board.flatRam with iomap := [{ mask := 0#16, select := 0#16, target := .external }], portIn := bytes }

/-- V182: IN B,(C) of 00H. -/
theorem test_step_inRC : after { start 0#16 { RegFile.zero with b := 0x10#8, c := 0x07#8 } with board := deviceBoard [0#8] }
    [0xED#8, 0x40#8] (fun t => (t.regs.b, six t, t.board.log)) =
    some (0#8, [false, true, false, true, false, false], [.ioRead 0x1007#16 0#8]) := by decide

/-- V188: OUTI addresses the port with B already counted down. -/
theorem test_step_outi : after ({ start 0#16 { RegFile.zero with b := 0x10#8, c := 0x07#8, h := 0x10#8 } with
      board := deviceBoard [] }.placeBytes 0x1000#16 [0x59#8]) [0xED#8, 0xA3#8]
    (fun t => (t.hl, t.regs.b, t.regs.f.z, t.board.log)) =
    some (0x1001#16, 0x0F#8, false, [.ioWrite 0x0F07#16 0x59#8]) := by decide

/-- The words of R556's DMA example are taken by the chip: afterwards it is enabled, memory is port B, the status says "loaded". -/
theorem test_dma_example :
    ((fun d : Dma =>
        (d.dmaClass, d.mode, [d.enabled, d.aToB, d.portA.io, d.portB.io], [d.portA.start, d.portB.addr, d.blockLength],
          d.loaded))
      ([0x6D#8, 0x05#8, 0x00#8, 0x10#8, 0x2C#8, 0x10#8, 0xCD#8, 0x50#8, 0x10#8, 0x8A#8, 0xCF#8, 0x87#8].foldl
        (fun d w => d.write (fun _ => 0#8) w) Dma.powerOn)) =
    (.transfer, .burst, [true, true, true, false], [0x0005#16, 0x1050#16, 0x1000#16], true) := by decide

/-- A match that does not stop and the end of the block are delivered together, and the block goes on to its end (R552, R542). -/
theorem test_dma_causes :
    (fun d : Dma => (d.delivered, d.enabled, d.endOfBlock, d.matchFound))
      (({ Dma.powerOn with
        enabled := true, intEnabled := true, dmaClass := .search, mode := .burst, aToB := true, blockLength := 2#16
        matchByte := 0x20#8, intControl := 0x33#8 }.afterByte 0x20#8).afterByte 0x41#8) =
    (0x06#8, false, true, true) := by decide

/-- The registers still to be read: all that the mask selects, then those left of the round, then all again (R551). -/
theorem test_dma_read :
    { Dma.powerOn with readMask := 0x86#8 }.toRead = 0x06#8 ∧
    { Dma.powerOn with readMask := 0x86#8, readLeft := 0x04#8 }.toRead = 0x04#8 ∧ lowestBit 0x06#8 = 1 ∧
    { Dma.powerOn with byteCounter := 0x1234#16 }.readable 0#8 1 = 0x34#8 := by decide

/-- A PIO in its reset state takes no strobe; after the mode 1 word it does (R483, R485). -/
theorem test_pio_reset :
    (Pio.powerOn.strobe false 0x55#8) = Pio.powerOn ∧
    ((Pio.powerOn.writeControl false 0x4F#8).toOption.map fun p => (p.strobe false 0x55#8).a.inReg) = some 0x55#8 := by
  decide

/-- With OR a second line that becomes active makes a request while the first one still is (R489). -/
theorem test_pio_or :
    ((({ Pio.powerOn with
        inReset := false
        a := { PioPort.powerOn with mode := .bitControl, ioSelect := 0xFF#8, highLow := true, intEnable := true } }.drive
          false 0x01#8).setPort false
        { PioPort.powerOn with
          mode := .bitControl, ioSelect := 0xFF#8, highLow := true, intEnable := true, lines := 0x01#8 }).drive
      false 0x03#8).a.pending = true := by decide

/-- A seven bit character with a wrong parity bit shows as a parity error (R500, R508, R509). -/
theorem test_sio_receive :
    (fun c : SioChannel => (c.parityError, c.framingError))
      ({ SioChannel.powerOn with wr3 := 0x41#8, wr4 := 0x47#8 }.receive (fun _ => 0#8)
        { data := 0xC1#8, parityBit := true, stopBit := true }) = (true, false) := by decide

/-- The frame between two flags of SDLC is received, what comes before the first flag is not (R500, R509). -/
theorem test_sio_frame :
    (fun c : SioChannel =>
        let d := c.receive (fun _ => 0#8) { data := 0x55#8, parityBit := false, stopBit := true }
        let e := (c.lineFlag false).receive (fun _ => 0#8) { data := 0x55#8, parityBit := false, stopBit := true }
        ([d.hunting, d.inFrame], [e.hunting, e.inFrame], (e.lineFlag false).endOfFrame))
      { SioChannel.powerOn with wr3 := 0xC1#8, wr4 := 0x20#8 } = ([true, false], [false, true], true) := by decide

/-- A transmitter that runs empty sends nothing in asynchronous mode and the flag in SDLC, after its CRC (R500). -/
theorem test_sio_underrun :
    ({ SioChannel.powerOn with transmitOn := true, wr4 := 0x4C#8 }.send).isNone = true ∧
    ({ SioChannel.powerOn with transmitOn := true, wr4 := 0x20#8, crcSyncLatch := true }.send).map Prod.fst =
      some SioSent.flag := by decide

/-- B RDY shows that port A's input register is empty in mode 2, and falls when port A leaves it with port B in mode 3 (R485). -/
theorem test_pio_ready :
    (fun p : Pio => ((p.readData false 0#8).2.b.ready,
        ((p.readData false 0#8).2.writeControl false 0x4F#8).toOption.map fun q => q.b.ready))
      { a := { PioPort.powerOn with mode := .bidirectional }, b := { PioPort.powerOn with mode := .bitControl }
        inReset := false } = (true, some false) := by decide

/-- The mc-CP/M computer: an I/O read in 4000H to 7FFFH switches the boot EPROM off, one outside does not (R572, R586). -/
theorem test_boot_overlay :
    ((Board.mcCpm 0xF#4).ioRead 0 0x4000#16).2.overlay.map (·.active) = some false ∧
    ((Board.mcCpm 0xF#4).ioRead 0 0x8000#16).2.overlay.map (·.active) = some true ∧
    (Board.mcCpm 0xF#4).poke 0x0000#16 0x55#8 = Board.mcCpm 0xF#4 ∧
    (Board.mcCpm 0xF#4).target 0x00F5#16 = some (.pio 0 true false) ∧
    (Board.mcCpm 0xA#4).target 0x00A3#16 = some (.sio 0 true true) := by decide

/-! ## Boundaries -/

/-- A state with one input waiting. -/
def withInput (s : State) (inp : Input) : State := { s with inputs := [inp] }

/-- ADD HL,BC has a gap before each of its two internal cycles, and JR e, taken, before its operand and its internal cycle: of three
accesses of another master two fall into the step (R594, R595). -/
theorem test_internal_cycles :
    let three := { Input.quiet with between := [masterGap 0x8000#16 1#8, masterGap 0x8000#16 2#8, masterGap 0x8000#16 3#8] }
    after (withInput State.reset three) [0x09#8] (fun t => (t.read 0x8000#16, t.gaps.length)) = some (2#8, 1) ∧
    after (withInput State.reset three) [0x18#8, 0x10#8] (fun t => (t.read 0x8000#16, t.gaps.length)) = some (2#8, 1) := by decide

/-- An iteration of LDIR that repeats has an internal cycle at its end, one more than its last (R210). -/
theorem test_internal_repeat :
    let quiet := { Input.quiet with between := [Gap.quiet, Gap.quiet, Gap.quiet, Gap.quiet] }
    after (withInput (start 0#16 { RegFile.zero with c := 2#8, d := 0x80#8 }) quiet) [0xED#8, 0xB0#8]
      (fun t => (t.pc, t.gaps.length)) = some (0#16, 0) ∧
    after (withInput (start 0#16 { RegFile.zero with c := 1#8, d := 0x80#8 }) quiet) [0xED#8, 0xB0#8]
      (fun t => (t.pc, t.gaps.length)) = some (2#16, 1) := by decide

/-- V220: an NMI pushes PC and goes to 0066H. -/
theorem test_boundary_nmi : after
    (withInput { start 0x1234#16 RegFile.zero with sp := 0x8000#16, iff1 := true, iff2 := true }
      { Input.quiet with nmi := true }) []
    (fun t => (t.pc, t.sp, [t.read 0x7FFF#16, t.read 0x7FFE#16, t.r], t.iff1, t.iff2)) =
    some (0x0066#16, 0x7FFE#16, [0x12#8, 0x34#8, 0x01#8], false, true) := by decide

/-- E9: a mode 2 interrupt goes through the table at I:v. -/
theorem test_boundary_mode2 : after
    ((withInput { start 0x4004#16 RegFile.zero with
      sp := 0x9000#16, i := 0x80#8, im := .im2, iff1 := true, iff2 := true }
      { Input.quiet with int := true, ack := [0x04#8] }).placeBytes 0x8004#16 [0x50#8, 0x60#8]) []
    (fun t => (t.pc, t.sp, [t.read 0x8FFF#16, t.read 0x8FFE#16, t.r], t.iff1, t.iff2)) =
    some (0x6050#16, 0x8FFE#16, [0x40#8, 0x04#8, 0x01#8], false, false) := by decide

/-- V224: mode 0 with a CALL on the bus. -/
theorem test_boundary_mode0_call : after
    (withInput { start 0x2000#16 RegFile.zero with sp := 0x9000#16, iff1 := true }
      { Input.quiet with int := true, ack := [0xCD#8, 0x34#8, 0x12#8] }) []
    (fun t => (t.pc, t.read 0x8FFF#16, t.read 0x8FFE#16)) = some (0x1234#16, 0x20#8, 0x00#8) := by decide

/-! ## Witnesses: for each statement with hypotheses, what meets them -/

theorem wit_DecodeOfEncode : (Instr.bitR 7 .a).WellFormed ∧ (Instr.setIx 0 0x80#8).WellFormed ∧
    (Instr.rstP 0x38#8).WellFormed := by decide

theorem wit_DecodedBytes : decode [0xDD#8, 0xCB#8, 0xFF#8, 0xFE#8, 0x00#8] = .ok (.setIx 7 0xFF#8, [0x00#8]) := by decide

/-- The reset state with two bytes at PC. -/
def holding (b1 b2 : Byte) : State := State.reset.placeBytes 0#16 [b1, b2, 0#8, 0#8]

/-- On the board of `State.reset` no device answers anywhere. -/
theorem no_device (s : State) (hb : s.board.memmap = Board.flatRam.memmap ∧ s.board.overlay = none) :
    NoDeviceAtPc s := by
  intro k _
  simp [Board.isDevice, Board.locate, Board.regions, hb.1, hb.2, Board.flatRam, Region.hit]

theorem wit_StepRuns : (holding 0xED#8 0xB0#8).arrive.boundary (holding 0xED#8 0xB0#8).input = .run ∧ Instr.ldir.WellFormed ∧
    Fetches (holding 0xED#8 0xB0#8).arrive.resume (encode .ldir) (holding 0xED#8 0xB0#8).arrive ∧
    Idles (idlesAfterFetch (holding 0xED#8 0xB0#8) .ldir) (holding 0xED#8 0xB0#8).arrive (holding 0xED#8 0xB0#8).arrive ∧
    Fetches (holding 0x3E#8 0xCB#8).arrive.resume (encode (.ldRN .a 0xCB#8)) (holding 0x3E#8 0xCB#8).arrive ∧
    (holding 0x18#8 0xFE#8).arrive.boundary (holding 0x18#8 0xFE#8).input = .run ∧
    Fetches (holding 0x18#8 0xFE#8).arrive.resume (encode (.jrE 0xFE#8)) (holding 0x18#8 0xFE#8).arrive ∧
    Idles (idlesAfterFetch (holding 0x18#8 0xFE#8) (.jrE 0xFE#8)) (holding 0x18#8 0xFE#8).arrive (holding 0x18#8 0xFE#8).arrive :=
  ⟨rfl, by decide, ⟨_, rfl, ⟨_, rfl, rfl⟩, _, _, rfl, rfl, ⟨_, rfl, rfl⟩, rfl⟩, rfl,
    ⟨_, rfl, ⟨_, rfl, rfl⟩, _, _, rfl, rfl, rfl, rfl⟩, rfl, ⟨_, rfl, ⟨_, rfl, rfl⟩, _, _, rfl, rfl, rfl, rfl⟩, ⟨_, rfl, rfl⟩⟩

theorem wit_StepRuns_quiet : (holding 0xED#8 0xB0#8).board.dmas = [] ∧ (holding 0xED#8 0xB0#8).input.between = [] ∧
    NoDeviceAtPc (holding 0xED#8 0xB0#8).arrive ∧
    decode (holding 0xED#8 0xB0#8).arrive.window = .ok (.ldir, [0#8, 0#8]) ∧ (holding 0xED#8 0xB0#8).inputs = [] :=
  ⟨rfl, rfl, no_device _ ⟨rfl, rfl⟩, rfl, rfl⟩

theorem wit_UndefinedEncoding : (holding 0xED#8 0x00#8).arrive.boundary (holding 0xED#8 0x00#8).input = .run ∧
    decode [0xED#8, 0x00#8] = .error (.unspecified [0xED#8, 0x00#8]) ∧
    Fetches (holding 0xED#8 0x00#8).arrive.resume [0xED#8, 0x00#8] (holding 0xED#8 0x00#8).arrive ∧
    (holding 0xED#8 0x00#8).board.dmas = [] ∧ (holding 0xED#8 0x00#8).input.between = [] ∧
    NoDeviceAtPc (holding 0xED#8 0x00#8).arrive ∧
    decode (holding 0xED#8 0x00#8).arrive.window = .error (.unspecified [0xED#8, 0x00#8]) :=
  ⟨rfl, rfl, ⟨_, rfl, ⟨_, rfl, rfl⟩, _, _, rfl, rfl, ⟨_, rfl, rfl⟩, rfl⟩, rfl, rfl, no_device _ ⟨rfl, rfl⟩, rfl⟩

/-! ### Machine cycles and gaps -/

/-- Where no gap is listed every machine cycle goes on from the state as it is: what the statements with `ReadsOnce`, `ReadsTwice`,
`WritesOnce`, `WritesTwice`, `ReadsThenWrites`, `ReadsIdlesThenWrites`, `Exchanges`, `Transfers`, `Searches`, `BlockReads` and
`BlockWrites` ask for. -/
theorem wit_cycles (s : State) (h : s.gaps = []) (a : Word) (v : Byte) (port : Word) : s.gap = .ok s ∧
    (s.memRead a).2.gap = .ok (s.memRead a).2 ∧ (s.write a v).gap = .ok (s.write a v) ∧
    { s with board := (s.board.ioRead s.tick port).2 }.gap = .ok { s with board := (s.board.ioRead s.tick port).2 } ∧
    ∀ n, Idles n s s := by
  refine ⟨?_, ?_, ?_, ?_, fun n => s.idles_nil n h⟩ <;> exact State.gap_nil _ h


/-- Machine cycles go on, too, where something happens between them. -/
theorem wit_cycles_busy : ∃ m, (between [masterGap 0#16 0x11#8, Gap.quiet]).gap = .ok m ∧ m.read 0#16 = 0x11#8 ∧
    ∃ n, (m.memRead 0#16).2.gap = .ok n := ⟨_, rfl, rfl, _, rfl⟩

/-- Every address reaches a memory-mapped device of the host's, which answers with the bytes given. -/
def deviceMemory (bytes : List Byte) : Board :=
  { Board.flatRam with
    memmap := [{ mask := 0#16, select := 0#16, kind := .device, base := 0, within := 0#16 }], memIn := bytes }

theorem wit_MachineCycles : (between [Gap.quiet]).gap = .ok State.reset ∧ State.reset.gaps = [] ∧
    State.reset.board.isDevice 0xFFFF#16 = false ∧ (deviceMemory [0x42#8]).isDevice 0xFFFF#16 = true ∧
    (deviceMemory [0x42#8]).memIn = [0x42#8] := ⟨rfl, rfl, rfl, rfl, rfl⟩

theorem wit_ResetCuts_gap : (between [resetGap]).gaps = [resetGap] ∧ resetGap.reset = true ∧ resetGap.master = [] :=
  ⟨rfl, rfl, rfl⟩

theorem wit_ResetCuts : (∃ o, (between [resetGap]).gap = .error o) ∧
    (Instr.usesMemory .incHl || Instr.reachesDevices .incHl) = true ∧ Instr.incHl ≠ .reti ∧ Instr.incHl ≠ .retn ∧
    (∀ cc nn, Instr.incHl ≠ .callCcNn cc nn) ∧ (∀ cc, Instr.incHl ≠ .retCc cc) ∧
    (∃ o, { between [resetGap] with board := State.reset.board.notifyReti }.gap = .error o) ∧
    ∃ o, { between [resetGap] with iff1 := false }.gap = .error o :=
  ⟨⟨_, rfl⟩, rfl, nofun, nofun, nofun, nofun, ⟨_, rfl⟩, _, rfl⟩

theorem wit_ResetCuts_second : (between [Gap.quiet, resetGap]).gap = .ok (between [resetGap]) ∧
    ∀ a v, ∃ o, ((between [resetGap]).write a v).gap = .error o := ⟨rfl, fun _ _ => ⟨_, rfl⟩⟩

/-- HL = 0000H, where the bytes at HL and HL+1 are two cells of RAM. -/
theorem wit_AnotherMaster : (between [Gap.quiet, masterGap 0#16 0x11#8]).board.dmas = [] ∧
    (between [Gap.quiet, masterGap 0#16 0x11#8]).gaps =
      [Gap.quiet, { Gap.quiet with
        busrq := true, master := [.memWrite (between [Gap.quiet, masterGap 0#16 0x11#8]).hl 0x11#8] }] ∧
    State.reset.board.isRam (0#16) ∧ State.reset.board.isRam (0#16 + 1#16) ∧
    ¬State.reset.board.sameCell (0#16 + 1#16) 0#16 := by
  refine ⟨rfl, rfl, ⟨_, rfl, rfl⟩, ⟨_, rfl, rfl⟩, ?_⟩
  rintro ⟨r, r', h, h', -, -, hc⟩
  cases h
  cases h'
  exact absurd hc (by decide)

/-- RESET between the two bytes that LD (nn),HL stores: the first stays, the second is lost (R580). -/
theorem test_reset_between : (match exec (.ldMemHl 0x1000#16)
      { between [Gap.quiet, resetGap] with regs := { RegFile.zero with h := 0x22#8, l := 0x11#8 }, sp := 0x55#16 } with
    | .next t => some (t.board.mem, t.pc, t.iff1)
    | _ => none) = some ([(0x1000, 0x11#8)], 0#16, false) := by decide

/-- A byte at a time DMA takes the bus between two machine cycles of an instruction (R78, R542). -/
theorem test_dma_between : (match exec (.ldMemHl 0x1000#16)
      { between [Gap.quiet, { Gap.quiet with dmaBytes := 1 }] with
        regs := { RegFile.zero with h := 0x22#8, l := 0x11#8 }
        board := { Board.flatRam with dmas := [{ Dma.powerOn with
          enabled := true, dmaClass := .transfer, mode := .byteAtATime, aToB := true, forceReady := true, blockLength := 9#16
          portA := { DmaPort.powerOn with addr := 0x1000#16 }, portB := { DmaPort.powerOn with addr := 0x2000#16 } }] } } with
    | .next t => some (t.board.mem, t.board.log.head?)
    | _ => none) =
    some ([(0x1000, 0x11#8), (0x1001, 0x22#8), (0x2000, 0x11#8)], some (.dmaByte 0 0x11#8)) := by decide

/-! ### Boundaries -/

/-- The HALT state with everything enabled, SP and the mode given, at one input. -/
def waiting (im : IntMode) (inp : Input) : State :=
  withInput { start 0x0101#16 RegFile.zero with sp := 0x8000#16, iff1 := true, im := im, halted := true } inp

theorem wit_ResetLine : (waiting .im2 { Input.quiet with reset := true }).input.reset = true ∧
    (waiting .im2 { Input.quiet with reset := true }).input.master = [] := by decide

theorem wit_Boundary_reset : State.reset.boundary { Input.quiet with reset := true, nmi := true, int := true } = .reset := by
  decide

theorem wit_Boundary_externalGrant :
    { State.reset with nmiPending := true }.boundary
      { Input.quiet with busrq := true, master := [.memWrite 0#16 0#8] } = .externalGrant := by decide

theorem wit_Boundary_nmi :
    { State.reset with nmiPending := true, iff1 := true }.boundary { Input.quiet with int := true } = .nmi := by decide

theorem wit_Boundary_int : { State.reset with iff1 := true }.boundary { Input.quiet with int := true } = .int := by decide

/-- The state in which an NMI comes, in the HALT state or not. -/
def nmiComes (halted : Bool) : State := { waiting .im1 { Input.quiet with nmi := true } with halted := halted }

theorem wit_Nmi (halted : Bool) : (nmiComes halted).arrive.boundary (nmiComes halted).input = .nmi ∧
    (∃ m, AfterM1 ({ (nmiComes halted).arrive.resume.respond with nmiPending := false }.fetchCycle
        (nmiComes halted).arrive.pc).2 m ∧ m.gaps = []) ∧ (nmiComes halted).halted = halted ∧
    (nmiComes halted).board.dmas = [] ∧ (nmiComes halted).arrive.board.isDevice (nmiComes halted).pc = false := by
  cases halted <;> exact ⟨rfl, ⟨_, ⟨_, rfl, rfl⟩, rfl⟩, rfl, rfl, rfl⟩

/-- The state in which a maskable interrupt comes, with the bytes on the bus. -/
def intComes (im : IntMode) (ack : List Byte) : State := waiting im { Input.quiet with int := true, ack := ack }

/-- The step of each mode with the boundary values of the byte in each clause: C7H and FFH, CDH, 00H and FEH, 01H and FFH. -/
theorem wit_MaskableEntry :
    (∀ im ∈ [IntMode.im0, .im1, .im2], ∀ v ∈ [0x00#8, 0x01#8, 0xC7#8, 0xCD#8, 0xFE#8, 0xFF#8],
      (intComes im [v, 0x34#8, 0x12#8]).arrive.boundary (intComes im [v, 0x34#8, 0x12#8]).input = .int ∧
      ∃ m, Acknowledges (intComes im [v, 0x34#8, 0x12#8]).arrive.resume (intComes im [v, 0x34#8, 0x12#8]).input.ack v
        [0x34#8, 0x12#8] m ∧ m.im = im ∧ m.gaps = []) ∧
    0xC7#8 &&& 0xC7#8 = 0xC7#8 ∧ 0xFF#8 &&& 0xC7#8 = 0xC7#8 ∧
    0xCD#8 &&& 0xC7#8 ≠ 0xC7#8 ∧ 0x00#8 &&& 0xC7#8 ≠ 0xC7#8 ∧ 0x00#8 ≠ 0xCD#8 ∧
    (0x00#8).getLsbD 0 = false ∧ (0xFE#8).getLsbD 0 = false ∧ (0x01#8).getLsbD 0 = true ∧
    (0xFF#8).getLsbD 0 = true := by
  refine ⟨?_, by decide⟩
  intro im _ v _
  exact ⟨rfl, _, ⟨rfl, rfl, _, rfl, rfl⟩, rfl, rfl⟩

/-- A CALL with no operand byte and one with a single one are refused (R437, R470). -/
theorem wit_MaskableEntry_operands :
    step (intComes .im0 [0xCD#8]) = .refused .mode0CallWithoutOperands ∧
    step (intComes .im0 [0xCD#8, 0x34#8]) = .refused .mode0CallWithoutOperands ∧
    (∃ m, Acknowledges (intComes .im0 [0xCD#8]).arrive.resume (intComes .im0 [0xCD#8]).input.ack 0xCD#8 [] m ∧
      m.im = .im0 ∧ m.gaps = []) ∧
    ∃ m, Acknowledges (intComes .im0 [0xCD#8, 0x34#8]).arrive.resume (intComes .im0 [0xCD#8, 0x34#8]).input.ack 0xCD#8
      [0x34#8] m ∧ m.im = .im0 ∧ m.gaps = [] := by
  refine ⟨rfl, rfl, ?_, ?_⟩ <;> exact ⟨_, ⟨rfl, rfl, _, rfl, rfl⟩, rfl, rfl⟩

/-- A board with one CTC whose channel 2 requests an interrupt. -/
def ctcBoard : Board :=
  { Board.flatRam with
    ctcs := [{ Ctc.powerOn with ch2 := { CtcChannel.powerOn with ctrl := 0x80#8, pending := true } }], chain := [.ctc 0] }

/-- Without a requesting unit the host's byte is read, with one the unit's vector. -/
theorem wit_MaskableAcceptance :
    (intComes .im1 [0x42#8]).arrive.boundary (intComes .im1 [0x42#8]).input = .int ∧
    (intComes .im1 [0x42#8]).board.dmas = [] ∧ (intComes .im1 [0x42#8]).arrive.board.requester = none ∧
    (intComes .im1 [0x42#8]).input.ack = [0x42#8] ∧
    ∃ m, Acknowledges (intComes .im1 [0x42#8]).arrive.resume (intComes .im1 [0x42#8]).input.ack 0x42#8 [] m :=
  ⟨rfl, rfl, rfl, rfl, _, rfl, rfl, _, rfl, rfl⟩

theorem wit_MaskableAcceptance_chain :
    { waiting .im1 Input.quiet with board := ctcBoard }.arrive.boundary Input.quiet = .int ∧
    { waiting .im1 Input.quiet with board := ctcBoard }.arrive.board.requester = some (.ctc 0 2) ∧
    ctcBoard.vector (.ctc 0 2) = 0x04#8 ∧
    ∃ m, Acknowledges { waiting .im1 Input.quiet with board := ctcBoard }.arrive.resume [] 0x04#8 [] m :=
  ⟨rfl, rfl, rfl, _, rfl, rfl, _, rfl, rfl⟩

/-- The HALT state with nothing arriving, in the three ways the statement lists. -/
theorem wit_Halt_waits : { State.reset with halted := true }.iff1 = false ∧
    { State.reset with halted := true, iff1 := true, eiDelay := true }.eiDelay = true ∧
    { State.reset with halted := true, iff1 := true }.board.requester = none ∧
    { State.reset with halted := true }.inputs = [] ∧ { State.reset with halted := true }.board.dmas = [] ∧
    { State.reset with halted := true }.nmiPending = false := ⟨rfl, rfl, rfl, rfl, rfl, rfl⟩

/-- The HALT state is left by each of the three ways. -/
theorem wit_Halt_ends :
    (∃ t, step (waiting .im1 { Input.quiet with reset := true }) = .next t ∧ t.halted = false) ∧
    (∃ t, step (waiting .im1 { Input.quiet with nmi := true }) = .next t ∧ t.halted = false) ∧
    ∃ t, step (waiting .im1 { Input.quiet with int := true }) = .next t ∧ t.halted = false :=
  ⟨⟨_, rfl, rfl⟩, ⟨_, rfl, rfl⟩, ⟨_, rfl, rfl⟩⟩

/-- A DMA that is programmed to copy memory and asks for the bus. -/
def busyDma : Dma :=
  { Dma.powerOn with
    enabled := true, dmaClass := .transfer, mode := .burst, aToB := true, forceReady := true, blockLength := 2#16
    portA := { DmaPort.powerOn with increment := true, addr := 0x1000#16 }
    portB := { DmaPort.powerOn with increment := true, addr := 0x2000#16 } }

/-- A burst that has lost RDY does not hold the bus, so that a continuous mode set afterwards does not move bytes without RDY; nor does a
chip hold it that the CPU's machine cycles have passed (R542, R543). -/
theorem test_burst_lets_go :
    let d := { busyDma with holding := true, forceReady := false, readyHigh := true }
    d.poll.holding = false ∧ ({ d with mode := .continuous }.poll).holding = true ∧
    ({ { d with mode := .continuous } with forceReady := true }.word2B 0xA1#8).holding = false ∧
    ({ Board.flatRam with dmas := [{ d with mode := .continuous }] }.resumeDmas.busWanted false) = none := by decide

/-- A continuous operation that has begun keeps the bus also where the interrupt before the bus request is enabled meanwhile (R542). -/
theorem test_continuous_keeps :
    let d := { busyDma with mode := .continuous, intControl := 0x40#8 }
    ({ d with holding := true }.write (fun _ => 0#8) 0xAB#8).poll.wantsBus = true ∧
    ({ d with holding := true, announced := true, rdyPending := true }.write (fun _ => 0#8) 0xAB#8).poll.wantsBus = true ∧
    (d.write (fun _ => 0#8) 0xAB#8).poll.wantsBus = false := by decide

/-- At the end of a block that restarts, the bus goes back to the CPU, and the repeat asks after its machine cycle (R542, R549); a chip nearer
the head does not take the bus from one that holds it. -/
theorem test_restart_gives_back :
    let d := { busyDma with autoRestart := true, byteCounter := 1#16 }.afterByte 0#8
    let b := { Board.flatRam with dmas := [d] }
    b.busWanted false = none ∧ b.resumeDmas.busWanted false = some 0 ∧ d.byteCounter = 0#16 ∧
    { Board.flatRam with dmas := [busyDma, { busyDma with holding := true }] }.busWanted false = some 1 := by decide

/-- A burst operation that goes on in a gap of which the host leaves it no byte shows its grant too (R460, R543). -/
theorem test_gap_grant :
    ({ Board.flatRam with dmas := [{ busyDma with holding := true, byteCounter := 1#16 }] }.release 0 Gap.quiet).toOption.map
      (fun b : Board => (b.log.contains .busGrant, b.dmas.map Dma.holding, b.log.length)) = some (true, [false], 2) := by decide

/-- A transparent DMA whose RDY input follows an SIO's receiver takes the one character that waits, and no second byte (R501, R541). -/
theorem test_transparent_ready :
    let receiver := { SioChannel.powerOn with wr1 := 0xE0#8, received := [0x5A#8] }
    let b := { Board.flatRam with
      dmas := [{ busyDma with mode := .transparent, forceReady := false, portA := { DmaPort.powerOn with io := true, fixed := true } }]
      sios := [{ a := receiver, b := SioChannel.powerOn }], readyWires := [{ dma := 0, sio := 0, channelB := false }]
      iomap := [{ mask := 0#16, select := 0#16, target := .sio 0 false false }] }
    (b.transparentByte 0).toOption.map (fun c : Board =>
      (c.log.head?, (c.transparentByte 0).toOption.map fun d : Board => d.log.length == c.log.length)) =
      some (some (.dmaByte 0 0x5A#8), some true) := by decide

theorem wit_BusGrant_dma : { State.reset with board := { Board.flatRam with dmas := [busyDma] } }.arrive.boundary
      Input.quiet = .dmaGrant 0 ∧
    ∃ t, step { State.reset with board := { Board.flatRam with dmas := [busyDma] } } = .next t := ⟨rfl, _, rfl⟩

theorem wit_BusGrant_external :
    (withInput State.reset { Input.quiet with busrq := true, master := [.memWrite 0#16 1#8] }).arrive.boundary
      { Input.quiet with busrq := true, master := [.memWrite 0#16 1#8] } = .externalGrant ∧
    ∃ t, step (withInput State.reset { Input.quiet with busrq := true, master := [.memWrite 0#16 1#8] }) = .next t :=
  ⟨rfl, _, rfl⟩

/-- A state with bytes in memory, a PIO and a CTC meets the invariant, and steps. -/
theorem wit_Invariant :
    { holding 0x77#8 0x00#8 with
      board := { (holding 0x77#8 0x00#8).board with pios := [Pio.powerOn], ctcs := [Ctc.powerOn] } }.Inv ∧
    ∃ t, step (holding 0x77#8 0x00#8) = .next t := by
  refine ⟨⟨by decide, ?_, ?_⟩, _, rfl⟩
  · intro p hp
    obtain rfl := List.mem_singleton.mp hp
    exact ⟨rfl, rfl, nofun, nofun, nofun⟩
  · intro p hp
    obtain rfl := List.mem_singleton.mp hp
    rfl

/-- A ROM at the bottom half and a RAM at the top half of the addresses. -/
def romBoard : Board :=
  { Board.flatRam with
    mem := [(0, 0x77#8)]
    memmap := [{ mask := 0x8000#16, select := 0x0000#16, kind := .rom, base := 0, within := 0x7FFF#16 },
      { mask := 0x8000#16, select := 0x8000#16, kind := .ram, base := 0x8000, within := 0x7FFF#16 }] }

/-- Cell 0 of that platform is reached by no RAM chip, and the step that tries to write there goes on. -/
theorem wit_Rom : (∀ r, romBoard.hasRegion r → (r.kind = .ram ∨ r.kind = .guardedRam) → ∀ a, r.hit a = true → r.cell a ≠ 0) ∧
    ∃ t, step { State.reset with board := romBoard } = .next t ∧ cellRead t.board.mem 0 = 0x77#8 := by
  refine ⟨fun r h hk a _ => ?_, _, rfl, by decide⟩
  rcases h with h | ⟨o, h, _⟩
  · rcases List.mem_cons.mp h with rfl | h
    · rcases hk with hk | hk <;> cases hk
    · obtain rfl := List.mem_singleton.mp h
      simp [Region.cell]
  · cases h

theorem wit_NoInstructionFaults : State.reset.gaps = [] ∧ Instr.nop.reachesDevices = false ∧ (Instr.ldHlN 0#8).reachesDevices = false := by
  decide

theorem wit_OtherInstructions : Instr.writesFlags (.ldRN .a 1#8) = false ∧ Instr.storesMemory (.ldRN .a 1#8) = false ∧
    Instr.reachesDevices (.ldRN .a 1#8) = false ∧ Instr.movesPc (.ldRN .a 1#8) = false ∧
    Instr.usesMemory (.ldRN .a 1#8) = false ∧ State.reset.gaps = [] ∧ (∃ t, exec (.ldRN .a 1#8) State.reset = .next t) ∧
    Instr.writesFlags (.ldRHl .a) = false ∧ (∀ g ∈ (between [masterGap 0#16 1#8]).gaps, g.reset = false) ∧
    ∃ t, exec (.ldRHl .a) (between [masterGap 0#16 1#8]) = .next t :=
  ⟨rfl, rfl, rfl, rfl, rfl, rfl, ⟨_, rfl⟩, rfl, by decide, _, rfl⟩

theorem wit_OnlyEi : (∃ t, exec .ei State.reset = .next t) ∧ ∃ t, exec .retn (between [resetGap]) = .next t :=
  ⟨⟨_, rfl⟩, _, rfl⟩

theorem wit_ControlState : (∀ g ∈ (between [masterGap 0#16 1#8]).gaps, g.reset = false) ∧
    ∃ t, exec .retn (between [masterGap 0#16 1#8]) = .next t := ⟨by decide, _, rfl⟩

/-! ### Loads, arithmetic, jumps: the first and the last machine cycle of each form goes on -/

theorem wit_LoadRegisterFromMemory : State.reset.gap = .ok State.reset := rfl

theorem wit_StoreByteToMemory : State.reset.gap = .ok State.reset := rfl

theorem wit_LoadWordFromMemory (nn : Word) : State.reset.gap = .ok State.reset ∧
    (State.reset.memRead nn).2.gap = .ok (State.reset.memRead nn).2 := ⟨rfl, rfl⟩

theorem wit_StoreWordToMemory (nn : Word) : State.reset.gap = .ok State.reset ∧
    (State.reset.write nn 0#8).gap = .ok (State.reset.write nn 0#8) := ⟨rfl, rfl⟩

theorem wit_PushAndPop : State.reset.gap = .ok State.reset ∧
    (State.reset.write (0#16 - 1#16) 0#8).gap = .ok (State.reset.write (0#16 - 1#16) 0#8) ∧
    (State.reset.memRead 0#16).2.gap = .ok (State.reset.memRead 0#16).2 := ⟨rfl, rfl, rfl⟩

theorem wit_Exchanges : ∃ m n p q, State.reset.gap = .ok m ∧ (m.memRead 0#16).2.gap = .ok n ∧
    (n.memRead (0#16 + 1#16)).2.gap = .ok p ∧ (p.write (0#16 + 1#16) 0#8).gap = .ok q ∧ q = p.write (0#16 + 1#16) 0#8 :=
  ⟨_, _, _, _, rfl, rfl, rfl, rfl, rfl⟩

/-- The last iteration, at BC = 0001H and at B = 01H, and one that repeats, at zero. -/
def counting (b c : Byte) : State := start 0#16 { RegFile.zero with b := b, c := c, d := 0x80#8 }

theorem wit_BlockTransfer (b c : Byte) : (counting b c).gap = .ok (counting b c) ∧
    ((counting b c).memRead (counting b c).hl).2.gap = .ok ((counting b c).memRead (counting b c).hl).2 ∧ ∀ v n,
      Idles n ((counting b c).write (counting b c).de v) ((counting b c).write (counting b c).de v) :=
  ⟨rfl, rfl, fun _ n => State.idles_nil _ n rfl⟩

theorem wit_BlockTransfer_bounds : ((counting 0#8 1#8).bc != 1#16) = false ∧ ((counting 0#8 0#8).bc != 1#16) = true ∧
    ((counting 1#8 0#8).regs.b != 1#8) = false := by decide

theorem wit_BlockSearch (b c : Byte) : (counting b c).gap = .ok (counting b c) ∧
    ∀ n, Idles n ((counting b c).memRead (counting b c).hl).2 ((counting b c).memRead (counting b c).hl).2 :=
  ⟨rfl, fun n => State.idles_nil _ n (State.memRead_gaps _ _)⟩

theorem wit_DigitRotates (a : Word) : State.reset.gap = .ok State.reset ∧
    Idles 1 (State.reset.memRead a).2 (State.reset.memRead a).2 ∧
    (State.reset.memRead a).2.gap = .ok (State.reset.memRead a).2 := ⟨rfl, ⟨_, rfl, rfl⟩, rfl⟩

theorem wit_ArithmeticForms : State.reset.gap = .ok State.reset := rfl

theorem wit_ByteForms (a : Word) : State.reset.gap = .ok State.reset ∧
    (State.reset.memRead a).2.gap = .ok (State.reset.memRead a).2 := ⟨rfl, rfl⟩

theorem wit_Returns : { State.reset with board := State.reset.board.notifyReti }.gap =
      .ok { State.reset with board := State.reset.board.notifyReti } ∧
    { State.reset with iff1 := false }.gap = .ok { State.reset with iff1 := false } := ⟨rfl, rfl⟩

theorem wit_BlockInput (b c : Byte) : ∃ m n, (counting b c).gap = .ok m ∧
    { m with board := (m.board.ioRead m.tick (b ++ c)).2 }.gap = .ok n ∧ ∀ v k,
      Idles k (n.write (counting b c).hl v) (n.write (counting b c).hl v) :=
  ⟨_, _, rfl, rfl, fun _ k => State.idles_nil _ k rfl⟩

/-- Two stack addresses that are two cells of RAM, at SP = 0001H where they lie across the top of memory. -/
theorem wit_PopAfterPush : State.reset.gaps = [] ∧ State.reset.board.isRam (0x0001#16 - 1#16) ∧
    State.reset.board.isRam (0x0001#16 - 2#16) ∧
    ¬State.reset.board.sameCell (0x0001#16 - 2#16) (0x0001#16 - 1#16) ∧ State.reset.pushed .pushIx = some 0#16 ∧
    (∀ qq, State.reset.pushed (.pushQq qq) = some (State.reset.pairAf qq)) ∧ State.reset.pushed .pushIy = some 0#16 := by
  refine ⟨rfl, ⟨_, rfl, rfl⟩, ⟨_, rfl, rfl⟩, ?_, rfl, fun _ => rfl, rfl⟩
  rintro ⟨r, r', h, h', -, -, hc⟩
  cases h
  cases h'
  exact absurd hc (by decide)

/-- A store at 0000H reaches 0000H and not 0001H. -/
theorem wit_Stored : State.reset.reaches 0#16 0#16 ∧ ¬State.reset.reaches 0#16 1#16 := by
  refine ⟨⟨⟨_, rfl, rfl⟩, _, _, rfl, rfl, nofun, nofun, rfl⟩, ?_⟩
  rintro ⟨-, r, r', h, h', -, -, hc⟩
  cases h
  cases h'
  exact absurd hc (by decide)

theorem wit_DecimalAdjust : isBcd 0x00#8 ∧ isBcd 0x99#8 := by
  unfold isBcd
  decide

theorem wit_BitNumbers : 0 < 8 ∧ 7 < 8 := by decide

/-- Each condition holds of some flags and not of others. -/
theorem wit_Conditions : (∀ cc ∈ [Cond.nz, .nc, .po, .p], condition Flags.zero cc) ∧
    (∀ cc ∈ [Cond.z, .c, .pe, .m], ¬condition Flags.zero cc) ∧
    (∀ cc ∈ [Cond.z, .c, .pe, .m], condition (Flags.ofByte 0xFF#8) cc) ∧
    ∀ cc ∈ [Cond.nz, .nc, .po, .p], ¬condition (Flags.ofByte 0xFF#8) cc := by
  simp [condition, Flags.zero, Flags.ofByte]

theorem wit_Input : State.reset.gap = .ok State.reset ∧ State.reset.board.overlay = none := ⟨rfl, rfl⟩

theorem wit_Output : State.reset.board.takesAnyByte 0xFFFF#16 ∧ (deviceBoard []).takesAnyByte 0x0000#16 := by
  refine ⟨fun _ _ h => ?_, fun _ _ h => ?_⟩ <;> cases h

/-- A board on which every port is the control location of a PIO's port B. -/
def pioBoard : Board :=
  { Board.flatRam with pios := [Pio.powerOn], iomap := [{ mask := 0#16, select := 0#16, target := .pio 0 true true }] }

/-- A control word that the chip takes, and one that a DMA takes though R550 does not list it. -/
theorem wit_Output_taken : State.reset.gap = .ok State.reset ∧ (∃ b, pioBoard.ioWrite 0 0#16 0x0F#8 = .ok b) ∧
    ∃ b, { Board.flatRam with
      dmas := [Dma.powerOn], iomap := [{ mask := 0#16, select := 0#16, target := .dma 0 }] }.ioWrite 0 0#16 0x8F#8 = .ok b :=
  ⟨rfl, ⟨_, rfl⟩, _, rfl⟩

/-- A word that the chip does not know, by OUT (n),A, OUT (C),r and the block outputs. -/
theorem wit_Output_refused :
    { start 0#16 { RegFile.zero with a := 0x01#8 } with board := pioBoard }.board.ioWrite 0 (0x01#8 ++ 0x00#8) 0x01#8 =
      .error (.pioControlWord 0x01#8) ∧
    { start 0#16 { RegFile.zero with d := 0x8F#8 } with board := pioBoard }.board.ioWrite 0 (0x00#8 ++ 0x00#8) 0x8F#8 =
      .error .pioPortBBidirectional := ⟨rfl, rfl⟩

theorem wit_Block_taken : ∃ m n b, State.reset.gap = .ok m ∧ (m.memRead 0#16).2.gap = .ok n ∧
    n.board.ioWrite n.tick (0xFF#8 ++ 0x00#8) (m.memRead 0#16).1 = .ok b ∧
    ∀ k, Idles k { n with board := b } { n with board := b } := ⟨_, _, _, rfl, rfl, rfl, fun k => State.idles_nil _ k rfl⟩

theorem wit_Block_refused : ∃ m n, ({ State.reset with board := pioBoard }.write 0#16 0x01#8).gap = .ok m ∧
    (m.memRead 0#16).2.gap = .ok n ∧
    n.board.ioWrite n.tick (0xFF#8 ++ 0x00#8) (m.memRead 0#16).1 = .error (.pioControlWord 0x01#8) :=
  ⟨_, _, rfl, rfl, rfl⟩

/-- A loaded counter with its interrupt on, with the time constant 0 for 256, and 1. -/
def counter (tc : Byte) : CtcChannel := { CtcChannel.powerOn with ctrl := 0xC0#8, tc := tc, down := tc, running := true }

theorem wit_Counter : (counter 0#8).running = true ∧ (counter 1#8).ctrl.getLsbD 6 = true ∧
    (counter 1#8).ctrl.getLsbD 7 = true ∧ (counter 0#8).down = (counter 0#8).tc ∧ (counter 0#8).pending = false ∧
    255 < 256 ∧ 0 < (counter 1#8).tc.toNat := by decide

/-- A chain in which a later unit requests; and one in which it is blocked by a unit under service. -/
theorem wit_Chain : ctcBoard.firstRequest [.ctc 0 0, .ctc 0 1, .ctc 0 2, .ctc 0 3] = some (.ctc 0 2) ∧
    { ctcBoard with pios := [{ Pio.powerOn with a := { PioPort.powerOn with underService := true } }] }.firstRequest
      [.pio 0 false, .ctc 0 2] = none := by decide

/-- The three states of a PIO port that waits for a word, and a word of each kind at the ends of its range. -/
theorem wit_PioWords : Pio.powerOn.inReset = true ∧ { PioPort.powerOn with expect := .ioSelect }.expect = .ioSelect ∧
    { PioPort.powerOn with expect := .mask }.expect = .mask ∧ PioPort.powerOn.expect = .nothing ∧
    (0x00#8).getLsbD 0 = false ∧ (0xFE#8).getLsbD 0 = false ∧
    (0x03#8).extractLsb' 0 4 = 0x3#4 ∧ (0xF3#8).extractLsb' 0 4 = 0x3#4 ∧
    (0x17#8).extractLsb' 0 4 = 0x7#4 ∧ (0x17#8).getLsbD 4 = true ∧ (0xE7#8).getLsbD 4 = false ∧
    (0x0F#8).extractLsb' 6 2 = 0#2 ∧ (0x4F#8).extractLsb' 6 2 = 1#2 ∧ (0x8F#8).extractLsb' 6 2 = 2#2 ∧
    (0xFF#8).extractLsb' 6 2 = 3#2 ∧ (0xFF#8).extractLsb' 0 4 = 0xF#4 ∧
    (0x01#8).extractLsb' 0 4 ∈ [0x1#4, 0x5#4, 0x9#4, 0xB#4, 0xD#4] ∧
    (0xFD#8).extractLsb' 0 4 ∈ [0x1#4, 0x5#4, 0x9#4, 0xB#4, 0xD#4] := by decide

end Sys2Proof.Tests
end

/-! # An encoding that the source does not define stops the step (R10, R90, R92, R118) -/

namespace Sys2Proof
open Machine

/-! ## Four bytes decide -/

/-- No plan asks for more than two bytes. -/
theorem Plan.finish_two_ne_truncated (p : Plan) (got rest bad : List Byte) (v w : Byte) :
    p.finish got (v :: w :: rest) ≠ .error (.truncated bad) := by
  cases p <;> exact nofun

/-- The plan asks for no byte. -/
def Plan.takesNoOperand : Plan → Bool
  | .undefined | .fixed _ => true
  | .byte _ | .word _ | .twoBytes _ => false

theorem Plan.finish_ne_truncated_of_takesNoOperand {p : Plan} (hp : p.takesNoOperand = true) (got rest bad : List Byte) :
    p.finish got rest ≠ .error (.truncated bad) := by
  cases p with
  | undefined | fixed => exact nofun
  | byte | word | twoBytes => cases hp

/-- After DD CB the displacement and the operation byte are the rest of the instruction (R114). -/
theorem planIxCb_takesNoOperand (d op : Byte) : (planIxCb d op).takesNoOperand = true := by
  unfold planIxCb rotIx
  repeat' split
  all_goals rfl

/-- After FD CB the displacement and the operation byte are the rest of the instruction (R114). -/
theorem planIyCb_takesNoOperand (d op : Byte) : (planIyCb d op).takesNoOperand = true := by
  unfold planIyCb rotIy
  repeat' split
  all_goals rfl

theorem decodeIndexed_three_ne_truncated {plan : Byte → Plan} {planCb : Byte → Byte → Plan}
    (hcb : ∀ d op, (planCb d op).takesNoOperand = true) (first b c d : Byte) (rest bad : List Byte) :
    decodeIndexed plan planCb first (b :: c :: d :: rest) ≠ .error (.truncated bad) := by
  unfold decodeIndexed
  dsimp only
  split
  · exact Plan.finish_ne_truncated_of_takesNoOperand (hcb c d) _ rest bad
  · exact (plan b).finish_two_ne_truncated _ _ bad c d

theorem decode_four_ne_truncated (a b c d : Byte) (rest bad : List Byte) :
    decode (a :: b :: c :: d :: rest) ≠ .error (.truncated bad) := by
  unfold decode
  dsimp only
  split
  · exact (planCb b).finish_two_ne_truncated _ _ bad c d
  split
  · exact (planEd b).finish_two_ne_truncated _ _ bad c d
  split
  · exact decodeIndexed_three_ne_truncated planIxCb_takesNoOperand a b c d rest bad
  split
  · exact decodeIndexed_three_ne_truncated planIyCb_takesNoOperand a b c d rest bad
  · exact (planMain a).finish_two_ne_truncated _ _ bad b c

/-- Four bytes are never too few (R90). -/
theorem decode_ne_truncated_of_four_le {bytes : List Byte} (h : 4 ≤ bytes.length) (bad : List Byte) :
    decode bytes ≠ .error (.truncated bad) := by
  match bytes, h with
  | a :: b :: c :: d :: rest, _ => exact decode_four_ne_truncated a b c d rest bad

/-- At most four bytes show that an encoding is undefined: the first four of more would be too few. -/
theorem decode_unspecified_length_le {bytes : List Byte} (h : decode bytes = .error (.unspecified bytes)) :
    bytes.length ≤ 4 := by
  by_contra hlong
  have hrest : bytes.drop 4 ≠ [] := by rw [Ne, List.drop_eq_nil_iff]; omega
  have hsplit := List.take_append_drop 4 bytes
  obtain ⟨bad, htrunc⟩ := (decode_proper_prefix (bytes.take 4) (bytes.drop 4) hrest).2 (by rw [hsplit]; exact h)
  exact decode_ne_truncated_of_four_le (by rw [List.length_take]; omega) bad htrunc

end Sys2Proof

namespace Sys2Proof.Machine

/-! ## What a fetch comes to -/

/-- Fewer bytes than `rest` after `got` do not decide, so that the fetch goes on until it has them all (R92). -/
def Undecided (got rest : List Byte) : Prop :=
  ∀ front back, rest = front ++ back → back ≠ [] → ∃ bad, decode (got ++ front) = .error (.truncated bad)

theorem Undecided.now {got rest : List Byte} {v : Byte} (h : Undecided got (v :: rest)) :
    ∃ bad, decode got = .error (.truncated bad) := by
  simpa using h [] (v :: rest) rfl (List.cons_ne_nil v rest)

theorem Undecided.tail {got rest : List Byte} {v : Byte} (h : Undecided got (v :: rest)) : Undecided (got ++ [v]) rest := by
  intro front back hrest hback
  simpa using h (v :: front) back (congrArg (v :: ·) hrest) hback

theorem undecided_of_unspecified {got rest : List Byte} (h : decode (got ++ rest) = .error (.unspecified (got ++ rest))) :
    Undecided got rest := by
  intro front back hrest hback
  rw [hrest, ← List.append_assoc] at h
  exact (decode_proper_prefix (got ++ front) back hback).2 h

/-- A fetch of bytes of which no fewer decide has them all, in the state after their machine cycles. -/
theorem State.fetchRest_of_fetchesRest (more : Nat) {got rest : List Byte} {s m : State} (hu : Undecided got rest)
    (hf : FetchesRest got rest s m) : State.fetchRest (more + rest.length) got s = State.fetchRest more (got ++ rest) m := by
  induction rest generalizing got s with
  | nil => rw [hf, List.append_nil]; rfl
  | cons v rest ih =>
    obtain ⟨g, u, hgap, hv, hcycle, hrest⟩ := hf
    obtain ⟨bad, htrunc⟩ := hu.now
    calc State.fetchRest (more + rest.length + 1) got s
      _ = s.fetchNext got fun w t => State.fetchRest (more + rest.length) (got ++ [w]) t :=
        (State.fetchRest_cases _ got s).2.2 bad htrunc
      _ = State.fetchRest (more + rest.length) (got ++ [v]) u := by rw [s.fetchNext_ok g u got _ hgap hcycle, hv]
      _ = State.fetchRest more (got ++ v :: rest) m := by rw [ih hu.tail hrest, List.append_assoc]; rfl

/-- An instruction fetch of at most four bytes of which no fewer decide comes to the point where they are decoded. -/
theorem State.runInstruction_of_fetches {v : Byte} {rest : List Byte} {s m : State} (hlen : (v :: rest).length ≤ 4)
    (hu : Undecided [v] rest) (hf : Fetches s (v :: rest) m) :
    s.runInstruction = State.fetchRest (3 - rest.length + 1) (v :: rest) m := by
  obtain ⟨u, hv, hm1, hrest⟩ := hf
  have hfuel : 4 = 3 - rest.length + 1 + rest.length := by rw [List.length_cons] at hlen; omega
  calc s.runInstruction
    _ = State.fetchRest 4 [v] u := by rw [State.runInstruction, State.fetchFirst, State.afterM1_ok _ u _ hm1, hv]
    _ = State.fetchRest (3 - rest.length + 1 + rest.length) [v] u := by rw [← hfuel]
    _ = State.fetchRest (3 - rest.length + 1) (v :: rest) m := State.fetchRest_of_fetchesRest _ hu hrest

/-- Fetched bytes that show an undefined encoding are a fault with these bytes (R118). -/
theorem State.runInstruction_unspecified {bytes : List Byte} {s m : State} (hbad : decode bytes = .error (.unspecified bytes))
    (hf : Fetches s bytes m) : s.runInstruction = .fault (.unspecifiedOpcode bytes) := by
  cases bytes with
  | nil => cases hf
  | cons v rest =>
    rw [State.runInstruction_of_fetches (decode_unspecified_length_le hbad) (undecided_of_unspecified hbad) hf]
    exact (State.fetchRest_cases _ _ m).2.1 _ hbad

/-! ## Boards that never get a DMA -/

theorem Board.clockChannel_dmas (b : Board) (n k : Nat) : (b.clockChannel n k).dmas = b.dmas := by
  unfold Board.clockChannel
  split <;> rfl

theorem Board.clockCtc_dmas (b : Board) (n count : Nat) : (b.clockCtc n count).dmas = b.dmas := by
  induction count generalizing b with
  | zero => rfl
  | succ count ih => rw [Board.clockCtc, ih]; simp only [Board.clockChannel_dmas]

/-- A peripheral puts no DMA on the board. -/
theorem Board.chipEvent_no_dma (b : Board) (tick : Nat) (e : ChipEvent) (h : b.dmas = []) :
    (b.chipEvent tick e).dmas = [] := by
  cases e
  case ctcClocks n count => exact (b.clockCtc_dmas n count).trans h
  case sioSent n channelB =>
    dsimp only [Board.chipEvent, Board.sioSent]
    repeat' split
    all_goals exact h
  case ctcEdge n k rising =>
    dsimp only [Board.chipEvent]
    split <;> exact h
  case dmaReady | dmaReset =>
    dsimp only [Board.chipEvent]
    rw [h, List.modify_nil]
  all_goals exact h

theorem Board.events_no_dma (b : Board) (tick : Nat) (es : List ChipEvent) (h : b.dmas = []) :
    (b.events tick es).dmas = [] := by
  unfold Board.events
  induction es generalizing b with
  | nil => exact h
  | cons e es ih => exact ih _ (b.chipEvent_no_dma tick e h)

theorem State.arrive_no_dma (s : State) (h : s.board.dmas = []) : s.arrive.board.dmas = [] := by
  have hevents := s.board.events_no_dma (s.tick + 1) s.input.events h
  exact (congrArg Board.dmas (Board.pollDmas_no_dma _ hevents)).trans hevents

theorem State.resume_no_dma (s : State) (h : s.board.dmas = []) : s.resume = s := by
  rw [State.resume, s.board.resumeDmas_no_dma h]

/-! ## A fetch with nothing between its machine cycles -/

theorem State.window_getElem? (s : State) (k : Nat) (v : Byte) (h : s.window[k]? = some v) :
    k < 4 ∧ s.fetchByte (s.pc + BitVec.ofNat 16 k) = v := by
  match k, h with
  | 0, h => exact ⟨by omega, by simpa [State.window] using h⟩
  | 1, h | 2, h | 3, h => exact ⟨by omega, by simpa [State.window] using h⟩
  | k + 4, h => simp [State.window] at h

/-- The machine cycle of a byte of the window reads it and leaves the state as it is. -/
theorem State.fetchCycle_window {s : State} (hmem : NoDeviceAtPc s) {got rest : List Byte} {v : Byte}
    (h : got ++ v :: rest <+: s.window) : s.fetchCycle (s.pc + BitVec.ofNat 16 got.length) = (v, s) := by
  obtain ⟨after, hwin⟩ := h
  have hget : s.window[got.length]? = some v := by rw [← hwin]; simp
  obtain ⟨hlt, hv⟩ := s.window_getElem? _ v hget
  rw [s.fetchCycle_memory _ (hmem _ hlt), hv]

/-- With no gap, no DMA and no device at PC the bytes of the window are fetched and nothing changes. -/
theorem State.fetchesRest_window {s : State} (hgaps : s.gaps = []) (hdma : s.board.dmas = []) (hmem : NoDeviceAtPc s)
    {got rest : List Byte} (h : got ++ rest <+: s.window) : FetchesRest got rest s s := by
  induction rest generalizing got with
  | nil => rfl
  | cons v rest ih =>
    have hcycle := State.fetchCycle_window hmem h
    refine ⟨s, s, s.gap_nil hgaps, by rw [hcycle], ?_, ih (by simpa using h)⟩
    rw [hcycle]
    split
    · exact s.afterM1_no_dma hdma
    · rfl

theorem State.fetches_window {s : State} (hgaps : s.gaps = []) (hdma : s.board.dmas = []) (hmem : NoDeviceAtPc s)
    {bytes : List Byte} (hne : bytes ≠ []) (h : bytes <+: s.window) : Fetches s bytes s := by
  cases bytes with
  | nil => exact absurd rfl hne
  | cons v rest =>
    have hcycle : s.fetchCycle s.pc = (v, s) := by simpa using State.fetchCycle_window (got := []) hmem h
    refine ⟨s, by rw [hcycle], ?_, State.fetchesRest_window hgaps hdma hmem h⟩
    rw [hcycle]
    exact s.afterM1_no_dma hdma

/-- With nothing between the machine cycles the fetch of a step takes the bytes that the window shows. -/
theorem State.fetches_of_arrive_window {s : State} (hdma : s.board.dmas = []) (hquiet : s.input.between = [])
    (hmem : NoDeviceAtPc s.arrive) {bytes : List Byte} (hne : bytes ≠ []) (h : bytes <+: s.arrive.window) :
    Fetches s.arrive.resume bytes s.arrive := by
  have hdma' := s.arrive_no_dma hdma
  rw [State.resume_no_dma _ hdma']
  exact State.fetches_window hquiet hdma' hmem hne h

/-! ## The step -/

theorem step_unspecified {s m : State} {bytes : List Byte} (hrun : s.arrive.boundary s.input = .run)
    (hbad : decode bytes = .error (.unspecified bytes)) (hf : Fetches s.arrive.resume bytes m) :
    step s = .fault (.unspecifiedOpcode bytes) :=
  ((step_eq s).2.2.2 hrun).trans (State.runInstruction_unspecified hbad hf)

/-- Settles O6: by induction over the bytes of the fetch, of which no fewer decide; the bytes that the window shows as undefined are
its first and are fetched in turn. -/
theorem undefinedEncodingStopsTheStep : Obligations.UndefinedEncodingStopsTheStep := by
  unfold Obligations.UndefinedEncodingStopsTheStep
  refine ⟨fun s m bytes hrun hbad hf => step_unspecified hrun hbad hf, fun s bytes hrun hdma hquiet hmem hwin => ?_,
    fun s got => decode_ne_truncated_of_four_le (bytes := s.window) (Nat.le_refl 4) got⟩
  obtain ⟨hprefix, hbad⟩ := decode_unspecified _ bytes hwin
  have hne : bytes ≠ [] := by rintro rfl; cases hbad
  exact step_unspecified hrun hbad (State.fetches_of_arrive_window hdma hquiet hmem hne hprefix)

end Sys2Proof.Machine

/-! # What an instruction leaves of the flags and of the control state (R22, R37 to R44) -/

namespace Sys2Proof.Machine

/-! ## Runs of machine cycles -/

/-- `m` is `s` after some machine cycles of its step: they change the board and use up gaps, and nothing else. -/
structure Passes (s m : State) : Prop where
  eq : m = { s with board := m.board, gaps := m.gaps }
  gaps : m.gaps <:+ s.gaps

/-- A RESET that the host listed among the gaps of the step has ended it in `t` (R580). -/
def CutShort (s t : State) : Prop := (∃ g ∈ s.gaps, g.reset = true) ∧ ∃ u : State, t = u.performReset

/-- What a step from `s` can come to: RESET cuts it short, or it ends as `E` says. -/
def CutOr (s : State) (E : State → Prop) (t : State) : Prop := CutShort s t ∨ E t

theorem CutShort.eiDelay {s t : State} (h : CutShort s t) : t.eiDelay = false := by
  obtain ⟨-, u, rfl⟩ := h
  rfl

theorem CutOr.of_no_reset {s t : State} {E : State → Prop} (h : CutOr s E t) (hs : ∀ g ∈ s.gaps, g.reset = false) : E t := by
  rcases h with ⟨⟨g, hg, hr⟩, -⟩ | h
  · rw [hs g hg] at hr; cases hr
  · exact h

theorem Passes.refl (s : State) : Passes s s := ⟨rfl, List.suffix_refl _⟩

theorem Passes.withBoard {s m : State} (h : Passes s m) (b : Board) : Passes s { m with board := b } :=
  ⟨by rw [h.eq], h.gaps⟩

theorem Passes.gap {s m n : State} (h : Passes s m) (hn : m.gap = .ok n) : Passes s n := by
  rw [m.gap_eq n hn]
  exact ⟨by rw [h.eq], (List.tail_suffix _).trans h.gaps⟩

theorem Passes.cutShort {s m t : State} (h : Passes s m) (ht : m.gap = .error (.next t)) : CutShort s t := by
  rcases m.gap_cases with ⟨-, e⟩ | ⟨g, rest, b, hg, -, ⟨e', e⟩ | ⟨hr, e⟩ | ⟨-, c, -, e⟩⟩ <;> rw [e] at ht <;> cases ht
  exact ⟨⟨g, h.gaps.subset (by rw [hg]; exact List.mem_cons_self), hr⟩, _, rfl⟩

section
variable {s m : State} {E : State → Prop}

theorem Passes.cycle {k : State → Result} (h : Passes s m) (hk : ∀ n, Passes s n → Every (CutOr s E) (k n)) :
    Every (CutOr s E) (m.cycle k) :=
  .cycle (fun _ ht => .inl (h.cutShort ht)) fun n hn => hk n (h.gap hn)

theorem Passes.internal (c : Nat) {k : State → Result} (h : Passes s m)
    (hk : ∀ n, Passes s n → Every (CutOr s E) (k n)) : Every (CutOr s E) (m.internal c k) := by
  induction c generalizing m with
  | zero => exact hk m h
  | succ c ih => exact h.cycle fun _ h => ih h

theorem Passes.readThen {a : Word} {k : Byte → State → Result} (h : Passes s m)
    (hk : ∀ v n, Passes s n → Every (CutOr s E) (k v n)) : Every (CutOr s E) (m.readThen a k) :=
  h.cycle fun _ h => hk _ _ (h.withBoard _)

theorem Passes.writeThen {a : Word} {v : Byte} {k : State → Result} (h : Passes s m)
    (hk : ∀ n, Passes s n → Every (CutOr s E) (k n)) : Every (CutOr s E) (m.writeThen a v k) :=
  h.cycle fun _ h => hk _ (h.withBoard _)

theorem Passes.readWordThen {a : Word} {k : Word → State → Result} (h : Passes s m)
    (hk : ∀ w n, Passes s n → Every (CutOr s E) (k w n)) : Every (CutOr s E) (m.readWordThen a k) :=
  h.readThen fun _ _ h => h.readThen fun _ _ h => hk _ _ h

theorem Passes.writeWordThen {a w : Word} {k : State → Result} (h : Passes s m)
    (hk : ∀ n, Passes s n → Every (CutOr s E) (k n)) : Every (CutOr s E) (m.writeWordThen a w k) :=
  h.writeThen fun _ h => h.writeThen hk

/-- A push goes on with SP two lower (R178). -/
theorem Passes.pushThen {w : Word} {k : State → Result} (h : Passes s m)
    (hk : ∀ n sp, Passes s n → Every (CutOr s E) (k { n with sp := sp })) : Every (CutOr s E) (m.pushThen w k) :=
  h.writeThen fun _ h => h.writeThen fun _ h => hk _ _ h

/-- A pop goes on with SP two higher (R181). -/
theorem Passes.popThen {k : Word → State → Result} (h : Passes s m)
    (hk : ∀ w n sp, Passes s n → Every (CutOr s E) (k w { n with sp := sp })) : Every (CutOr s E) (m.popThen k) :=
  h.readWordThen fun _ _ h => hk _ _ _ h

theorem Passes.portReadThen {port : Word} {k : Byte → State → Result} (h : Passes s m)
    (hk : ∀ v n, Passes s n → Every (CutOr s E) (k v n)) : Every (CutOr s E) (m.portReadThen port k) :=
  h.cycle fun _ h => hk _ _ (h.withBoard _)

theorem Passes.portWriteThen {port : Word} {v : Byte} {k : State → Result} (h : Passes s m)
    (hk : ∀ n, Passes s n → Every (CutOr s E) (k n)) : Every (CutOr s E) (m.portWriteThen port v k) := by
  refine h.cycle fun n h => ?_
  split
  · exact hk _ (h.withBoard _)
  · exact .refused

end

/-! ## The control state -/

/-- The registers, flip-flops and latches that have instructions of their own (R22, R38 to R42, R44), and the model's inputs and
tick. -/
structure Control where
  alt : RegFile
  i : Byte
  r : Byte
  iff1 : Bool
  iff2 : Bool
  im : IntMode
  nmiPending : Bool
  halted : Bool
  inputs : List Input
  tick : Nat

def State.control (s : State) : Control where
  alt := s.alt
  i := s.i
  r := s.r
  iff1 := s.iff1
  iff2 := s.iff2
  im := s.im
  nmiPending := s.nmiPending
  halted := s.halted
  inputs := s.inputs
  tick := s.tick

/-- The control state that an instruction leaves (R149, R150, R186, R187, R358, R402 to R407). -/
def State.controlAfter (s : State) : Instr → Control
  | .ldIA => { s.control with i := s.regs.a }
  | .ldRA => { s.control with r := s.regs.a }
  | .exAfAf => { s.control with alt := { s.alt with a := s.regs.a, f := s.regs.f } }
  | .exx => { s.control with alt := { s.regs with a := s.alt.a, f := s.alt.f } }
  | .retn => { s.control with iff1 := s.iff2 }
  | .halt => { s.control with halted := true }
  | .di => { s.control with iff1 := false, iff2 := false }
  | .ei => { s.control with iff1 := true, iff2 := true }
  | .im0 => { s.control with im := .im0 }
  | .im1 => { s.control with im := .im1 }
  | .im2 => { s.control with im := .im2 }
  | _ => s.control

/-- The end `t` of the instruction `i` that began in `s`: its control state, `ei_delay` and, where it writes none, its flags. -/
structure Ends (i : Instr) (s t : State) : Prop where
  control : t.control = s.controlAfter i
  delay : t.eiDelay = true ↔ i = .ei
  flags : i.writesFlags = false → t.regs.f = s.regs.f

theorem Passes.control {s m : State} (h : Passes s m) : m.control = s.control := by rw [h.eq]; rfl

theorem Passes.regs {s m : State} (h : Passes s m) : m.regs = s.regs := by rw [h.eq]

/-- The end of an instruction that writes no control state, in a state `u` made from `m` with no change of it. -/
theorem Passes.finish {i : Instr} {s m u : State} (h : Passes s m) (hi : s.controlAfter i = s.control) (hei : i ≠ .ei)
    (hu : u.control = m.control) (hf : i.writesFlags = false → u.regs.f = m.regs.f) :
    Every (CutOr s (Ends i s)) (finish u) :=
  .finish <| .inr
    { control := hu.trans (h.control.trans hi.symm)
      delay := ⟨nofun, fun e => absurd e hei⟩
      flags := fun hw => (hf hw).trans (congrArg RegFile.f h.regs) }

@[simp] theorem State.setPairSp_f (s : State) (p : PairSp) (w : Word) : (s.setPairSp p w).regs.f = s.regs.f := by
  cases p <;> rfl

/-- A pop writes F only where its pair is AF (R181). -/
theorem State.setPairAf_f (s : State) (p : PairAf) (w : Word) (h : p ≠ .af) : (s.setPairAf p w).regs.f = s.regs.f := by
  cases p with
  | bc | de | hl => rfl
  | af => exact absurd rfl h

section
variable {i : Instr} {s m : State}

theorem Passes.call {target : Word} (h : Passes s m) (hi : s.controlAfter i = s.control) (hei : i ≠ .ei) :
    Every (CutOr s (Ends i s)) (m.call target) :=
  h.pushThen fun _ _ h => h.finish hi hei rfl fun _ => rfl

theorem Passes.ret (h : Passes s m) (hi : s.controlAfter i = s.control) (hei : i ≠ .ei) :
    Every (CutOr s (Ends i s)) m.ret :=
  h.popThen fun _ _ _ h => h.finish hi hei rfl fun _ => rfl

/-- The end of an instruction that writes no control state, but flags. -/
theorem Passes.finishFlags {u : State} (h : Passes s m) (hi : s.controlAfter i = s.control) (hei : i ≠ .ei)
    (hw : i.writesFlags = true) (hu : u.control = m.control) : Every (CutOr s (Ends i s)) (Machine.finish u) :=
  h.finish hi hei hu fun e => absurd (hw.symm.trans e) nofun

theorem Passes.modify {a : Word} {g : Flags → Flags → Byte → Byte × Flags} (h : Passes s m)
    (hi : s.controlAfter i = s.control) (hei : i ≠ .ei) (hw : i.writesFlags = true) :
    Every (CutOr s (Ends i s)) (m.modify a g) :=
  h.readThen fun _ _ h => h.writeThen fun _ h => h.finishFlags hi hei hw rfl

theorem Passes.rewrite {a : Word} {g : Byte → Byte} (h : Passes s m) (hi : s.controlAfter i = s.control) (hei : i ≠ .ei) :
    Every (CutOr s (Ends i s)) (m.rewrite a g) :=
  h.readThen fun _ _ h => h.writeThen fun _ h => h.finish hi hei rfl fun _ => rfl

theorem Passes.rotateDigits {g : Byte → Byte → Byte × Byte} (h : Passes s m) (hi : s.controlAfter i = s.control)
    (hei : i ≠ .ei) (hw : i.writesFlags = true) : Every (CutOr s (Ends i s)) (m.rotateDigits g) :=
  h.readThen fun _ _ h => h.internal _ fun _ h => h.writeThen fun _ h => h.finishFlags hi hei hw rfl

/-- Setting PC back writes no control state. -/
theorem State.repeatIf_control (s : State) (again : Bool) : (s.repeatIf again).control = s.control := by
  cases again <;> rfl

theorem Passes.blockTransfer {down again : Bool} (h : Passes s m) (hi : s.controlAfter i = s.control) (hei : i ≠ .ei)
    (hw : i.writesFlags = true) : Every (CutOr s (Ends i s)) (m.blockTransfer down again) :=
  h.readThen fun _ _ h => h.writeThen fun _ h => h.internal _ fun _ h =>
    h.finishFlags hi hei hw (State.repeatIf_control _ _)

theorem Passes.blockSearch {down repeats : Bool} (h : Passes s m) (hi : s.controlAfter i = s.control) (hei : i ≠ .ei)
    (hw : i.writesFlags = true) : Every (CutOr s (Ends i s)) (m.blockSearch down repeats) :=
  h.readThen fun _ _ h => h.internal _ fun _ h => h.finishFlags hi hei hw (State.repeatIf_control _ _)

theorem Passes.blockInput {down again : Bool} (h : Passes s m) (hi : s.controlAfter i = s.control) (hei : i ≠ .ei)
    (hw : i.writesFlags = true) : Every (CutOr s (Ends i s)) (m.blockInput down again) :=
  h.portReadThen fun _ _ h => h.writeThen fun _ h => h.internal _ fun _ h =>
    h.finishFlags hi hei hw (State.repeatIf_control _ _)

theorem Passes.blockOutput {down again : Bool} (h : Passes s m) (hi : s.controlAfter i = s.control) (hei : i ≠ .ei)
    (hw : i.writesFlags = true) : Every (CutOr s (Ends i s)) (m.blockOutput down again) :=
  h.readThen fun _ _ h => h.portWriteThen fun _ h => h.internal _ fun _ h =>
    h.finishFlags hi hei hw (State.repeatIf_control _ _)

/-- An exchange with the top of the stack (R188). -/
theorem Passes.exchangeTop {E : State → Prop} {w : Word} {k : Word → State → Result} (h : Passes s m)
    (hk : ∀ v n, Passes s n → Every (CutOr s E) (k v n)) : Every (CutOr s E) (m.exchangeTop w k) :=
  h.readWordThen fun _ _ h => h.writeThen fun _ h => h.writeThen fun _ h => hk _ _ h

end

/-! ## Every instruction -/

/-- RETN is RET after IFF1 has taken IFF2 (R358). -/
theorem Ends.retn {s t : State} (h : Ends .ret s.restoreEnable t) : Ends .retn s t where
  control := h.control
  delay := h.delay.trans ⟨nofun, nofun⟩
  flags _ := h.flags rfl

/-- Every next state of an instruction: RESET has cut it short, or it has the control state, `ei_delay` and flags of its end. -/
theorem exec_ends (i : Instr) (s : State) : Every (CutOr s (Ends i s)) (exec i s) := by
  have h := Passes.refl s
  cases i <;> dsimp only [exec]
  -- no machine cycle after the fetch
  case ldRR | ldRN | ldDdNn | ldIxNn | ldIyNn | ldSpHl | ldSpIx | ldSpIy | exDeHl | incSs | incIx | incIy | decSs | decIx |
      decIy | setR | resR | jpNn | jpCcNn | jpHl | jpIx | jpIy | jrE | jrNz | jrZ | jrNc | jrC | djnz | nop =>
    exact h.finish rfl nofun (by simp [State.control]) (by simp)
  case ldAI | ldAR | addAR | addAN | adcAR | adcAN | subR | subN | sbcAR | sbcAN | andR | andN | xorR | xorN | orR | orN | cpR |
      cpN | incR | decR | daa | cpl | neg | ccf | scf | addHlSs | addIxPp | addIyRr | adcHlSs | sbcHlSs | rlca | rrca | rla |
      rra | rlcR | rrcR | rlR | rrR | slaR | sraR | srlR | bitR =>
    exact h.finishFlags rfl nofun rfl (by simp [State.control, State.accumulate, State.modifyReg, State.testBit])
  case ldIA | ldRA | exx | halt | di | im0 | im1 | im2 =>
    exact .finish (.inr { control := rfl, delay := ⟨nofun, nofun⟩, flags := fun _ => rfl })
  case exAfAf => exact .finish (.inr { control := rfl, delay := ⟨nofun, nofun⟩, flags := nofun })
  case ei => exact .next (.inr { control := rfl, delay := ⟨fun _ => rfl, fun _ => rfl⟩, flags := fun _ => rfl })
  -- reads
  case ldRHl | ldRIx | ldRIy | ldABc | ldADe | ldAMem =>
    exact h.readThen fun _ _ h => h.finish rfl nofun (by simp [State.control]) (by simp)
  case addAHl | addAIx | addAIy | adcAHl | adcAIx | adcAIy | subHl | subIx | subIy | sbcAHl | sbcAIx | sbcAIy | andHl | andIx |
      andIy | xorHl | xorIx | xorIy | orHl | orIx | orIy | cpHl | cpIx | cpIy | bitHl | bitIx | bitIy =>
    exact h.readThen fun _ _ h => h.finishFlags rfl nofun rfl rfl
  case ldHlMem | ldDdMem | ldIxMem | ldIyMem =>
    exact h.readWordThen fun _ _ h => h.finish rfl nofun (by simp [State.control]) (by simp)
  -- writes
  case ldHlR | ldIxR | ldIyR | ldHlN | ldIxN | ldIyN | ldBcA | ldDeA | ldMemA =>
    exact h.writeThen fun _ h => h.finish rfl nofun rfl fun _ => rfl
  case ldMemHl | ldMemDd | ldMemIx | ldMemIy =>
    exact h.writeWordThen fun _ h => h.finish rfl nofun rfl fun _ => rfl
  -- read-modify-write
  case incHl | incIxd | incIyd | decHl | decIxd | decIyd | rlcHl | rlcIx | rlcIy | rrcHl | rrcIx | rrcIy | rlHl | rlIx | rlIy |
      rrHl | rrIx | rrIy | slaHl | slaIx | slaIy | sraHl | sraIx | sraIy | srlHl | srlIx | srlIy =>
    exact h.modify rfl nofun rfl
  case setHl | setIx | setIy | resHl | resIx | resIy => exact h.rewrite rfl nofun
  case rld | rrd => exact h.rotateDigits rfl nofun rfl
  -- the stack
  case pushQq | pushIx | pushIy => exact h.pushThen fun _ _ h => h.finish rfl nofun rfl fun _ => rfl
  case popQq qq =>
    exact h.popThen fun _ _ _ h => h.finish rfl nofun (by simp [State.control]) fun hw =>
      State.setPairAf_f _ _ _ (by rintro rfl; cases hw)
  case popIx | popIy => exact h.popThen fun _ _ _ h => h.finish rfl nofun rfl fun _ => rfl
  case exSpHl | exSpIx | exSpIy => exact h.exchangeTop fun _ _ h => h.finish rfl nofun rfl fun _ => rfl
  case callNn | rstP => exact h.call rfl nofun
  case callCcNn =>
    unfold execCallCcNn
    split
    · exact h.call rfl nofun
    · exact h.finish rfl nofun rfl fun _ => rfl
  case ret => exact h.ret rfl nofun
  case retCc =>
    unfold execRetCc
    split
    · exact h.ret rfl nofun
    · exact h.finish rfl nofun rfl fun _ => rfl
  case reti => exact (h.withBoard _).ret rfl nofun
  case retn =>
    intro t ht
    exact ((Passes.refl s.restoreEnable).ret (i := .ret) rfl nofun t ht).imp id Ends.retn
  -- blocks
  case ldi | ldd | ldir | lddr => exact h.blockTransfer rfl nofun rfl
  case cpi | cpd | cpir | cpdr => exact h.blockSearch rfl nofun rfl
  case ini | ind | inir | indr => exact h.blockInput rfl nofun rfl
  case outi | outd | otir | otdr => exact h.blockOutput rfl nofun rfl
  -- I/O
  case inAN => exact h.portReadThen fun _ _ h => h.finish rfl nofun rfl fun _ => rfl
  case inRC => exact h.portReadThen fun _ _ h => h.finishFlags rfl nofun rfl (by simp [State.control])
  case outNA | outCR => exact h.portWriteThen fun _ h => h.finish rfl nofun rfl fun _ => rfl

/-- An instruction that no RESET cuts short ends as `Ends` says. -/
theorem exec_ends_of_no_reset {i : Instr} {s t : State} (hs : ∀ g ∈ s.gaps, g.reset = false) (h : exec i s = .next t) :
    Ends i s t := (exec_ends i s t h).of_no_reset hs

/-! ## The statements -/

/-- Each part of the control state has its own instructions. -/
theorem State.controlAfter_keeps (s : State) (i : Instr) :
    (i ≠ .di → i ≠ .ei → (s.controlAfter i).iff2 = s.iff2 ∧ (i ≠ .retn → (s.controlAfter i).iff1 = s.iff1)) ∧
    (i ≠ .im0 → i ≠ .im1 → i ≠ .im2 → (s.controlAfter i).im = s.im) ∧
    (i ≠ .ldIA → (s.controlAfter i).i = s.i) ∧ (i ≠ .ldRA → (s.controlAfter i).r = s.r) ∧
    (i ≠ .halt → (s.controlAfter i).halted = s.halted) ∧ (i ≠ .exAfAf → i ≠ .exx → (s.controlAfter i).alt = s.alt) ∧
    (s.controlAfter i).nmiPending = s.nmiPending ∧ (s.controlAfter i).inputs = s.inputs ∧
    (s.controlAfter i).tick = s.tick := by
  unfold State.controlAfter
  split <;> simp [State.control]

/-- Settles O22: an instruction ends with the flags it began with, as `exec_ends` says case by case. -/
theorem otherInstructionsLeaveTheFlags : Obligations.OtherInstructionsLeaveTheFlags := by
  unfold Obligations.OtherInstructionsLeaveTheFlags
  intro i s t hw hs h
  exact (exec_ends_of_no_reset hs h).flags hw

/-- Settles O23: `ei_delay` is set at the end of EI alone; a RESET clears it, and EI has no machine cycle that one could cut
short. -/
theorem onlyEiSetsTheDelay : Obligations.OnlyEiSetsTheDelay := by
  unfold Obligations.OnlyEiSetsTheDelay
  intro i s t h
  rcases exec_ends i s t h with hcut | hend
  · refine ⟨fun hd => absurd (hcut.eiDelay.symm.trans hd) nofun, ?_⟩
    rintro rfl
    cases h
    rfl
  · exact hend.delay

/-- Settles O24: the control state at the end is `controlAfter`, which changes each part for its own instructions only. -/
theorem controlStateHasItsOwnInstructions : Obligations.ControlStateHasItsOwnInstructions := by
  unfold Obligations.ControlStateHasItsOwnInstructions
  intro i s t hs h
  have hkeeps := s.controlAfter_keeps i
  rw [← (exec_ends_of_no_reset hs h).control] at hkeeps
  exact hkeeps

/-! # The boundary after EI, and the state after reset (R43, R47, R404, R434) -/

theorem State.boundary_ne_int_of_eiDelay {s : State} (inp : Input) (h : s.eiDelay = true) : s.boundary inp ≠ .int := by
  simp only [State.boundary, h, Bool.not_true, Bool.and_false, Bool.false_eq_true, if_false]
  repeat' split
  all_goals exact nofun

/-- Settles O12: arrival keeps the `ei_delay` that EI sets, and while it is set a boundary is no acceptance of INT. -/
theorem noMaskableInterruptRightAfterEi : Obligations.NoMaskableInterruptRightAfterEi := by
  unfold Obligations.NoMaskableInterruptRightAfterEi
  exact fun s => ⟨_, rfl, rfl, rfl, fun inp => State.boundary_ne_int_of_eiDelay inp rfl⟩

theorem State.reset_inv : State.reset.Inv where
  mem := List.Pairwise.nil
  pios := List.forall_mem_nil _
  ctcs := List.forall_mem_nil _

/-- Settles O19: nothing is stored in the memory of the reset state and no chip is on its board; the values are its fields. -/
theorem resetStateMeetsTheInvariant : Obligations.ResetStateMeetsTheInvariant := by
  unfold Obligations.ResetStateMeetsTheInvariant
  exact ⟨State.reset_inv, rfl, rfl, rfl, rfl, rfl, rfl, rfl, rfl, rfl⟩

end Sys2Proof.Machine

/-! # A step runs the instruction it fetches (R26, R38, R92, R425, R595) -/

namespace Sys2Proof
open Machine

/-! ## The decoder reads what the encoder writes -/

theorem exists_eq_word (nn : Word) : ∃ h l, nn = word h l := ⟨hi nn, lo nn, (word_hi_lo nn).symm⟩

theorem decode_encode_rstP : ∀ p : Byte, (Instr.rstP p).WellFormed → decode (encode (.rstP p)) = .ok (.rstP p, []) := by
  decide

theorem decode_encode (i : Instr) (h : i.WellFormed) : decode (encode i) = .ok (i, []) := by
  cases i
  case ldRR dst src => cases dst <;> cases src <;> rfl
  case ldRN r _ | ldRHl r | ldRIx r _ | ldRIy r _ | ldHlR r | ldIxR _ r | ldIyR _ r | addAR r | adcAR r | subR r | sbcAR r |
      andR r | xorR r | orR r | cpR r | incR r | decR r | rlcR r | rrcR r | rlR r | rrR r | slaR r | sraR r | srlR r | inRC r |
      outCR r =>
    cases r <;> rfl
  case ldAMem nn | ldMemA nn | ldIxNn nn | ldIyNn nn | ldHlMem nn | ldIxMem nn | ldIyMem nn | ldMemHl nn | ldMemIx nn |
      ldMemIy nn | jpNn nn | callNn nn =>
    obtain ⟨h, l, rfl⟩ := exists_eq_word nn
    simp only [encode, hi_word, lo_word]
    rfl
  case ldDdNn dd nn | ldDdMem dd nn | ldMemDd nn dd =>
    obtain ⟨h, l, rfl⟩ := exists_eq_word nn
    simp only [encode, hi_word, lo_word]
    cases dd <;> rfl
  case jpCcNn cc nn | callCcNn cc nn =>
    obtain ⟨h, l, rfl⟩ := exists_eq_word nn
    simp only [encode, hi_word, lo_word]
    cases cc <;> rfl
  case retCc cc => cases cc <;> rfl
  case pushQq qq | popQq qq => cases qq <;> rfl
  case addHlSs p | addIxPp p | addIyRr p | adcHlSs p | sbcHlSs p | incSs p | decSs p => cases p <;> rfl
  case bitR b r | setR b r | resR b r =>
    have hb : b < 8 := of_decide_eq_true h
    cases r <;> interval_cases b <;> rfl
  case bitHl b | setHl b | resHl b | bitIx b _ | setIx b _ | resIx b _ | bitIy b _ | setIy b _ | resIy b _ =>
    have hb : b < 8 := of_decide_eq_true h
    interval_cases b <;> rfl
  case rstP p => exact decode_encode_rstP p h
  all_goals rfl

/-! ## What the decoder reads is an encoding -/

/-- What a plan makes of the operand bytes it asks for, and those bytes. -/
def Plan.instr : Plan → Byte → Byte → Word → Option (Instr × List Byte)
  | .undefined, _, _, _ => none
  | .fixed i, _, _, _ => some (i, [])
  | .byte f, n, _, _ => some (f n, [n])
  | .word f, _, _, nn => some (f nn, [lo nn, hi nn])
  | .twoBytes f, d, n, _ => some (f d n, [d, n])

/-- The plan belongs to the opcode bytes `got`: each of its instructions is well-formed and encoded with them in front. -/
def Plan.Encodes (p : Plan) (got : List Byte) : Prop :=
  ∀ d n nn q, p.instr d n nn = some q → q.1.WellFormed ∧ got ++ q.2 = encode q.1

/-- An opcode byte is its three fields (R93). -/
theorem exists_eq_opcode (op : Byte) : ∃ x < 4, ∃ y < 8, ∃ z < 8, op = opcode x y z := by
  have hop := op.isLt
  refine ⟨opX op, by unfold opX; omega, opY op, by unfold opY; omega, opZ op, by unfold opZ; omega, ?_⟩
  apply BitVec.eq_of_toNat_eq
  simp only [opcode, opX, opY, opZ, BitVec.toNat_ofNat]
  omega

/-- Each opcode map's plan for the byte `op` belongs to the bytes that lead to it (R92, R114). -/
structure PlansEncode (d op : Byte) : Prop where
  main : (planMain op).Encodes [op]
  cb : (planCb op).Encodes [0xCB#8, op]
  ed : (planEd op).Encodes [0xED#8, op]
  ix : (planIx op).Encodes [0xDD#8, op]
  iy : (planIy op).Encodes [0xFD#8, op]
  ixCb : (planIxCb d op).Encodes [0xDD#8, 0xCB#8, d, op]
  iyCb : (planIyCb d op).Encodes [0xFD#8, 0xCB#8, d, op]

/-- By inspection of the 256 opcodes of each map (R107 to R114). -/
theorem plans_encode (disp op : Byte) : PlansEncode disp op := by
  obtain ⟨x, hx, y, hy, z, hz, rfl⟩ := exists_eq_opcode op
  interval_cases x <;> interval_cases y <;> interval_cases z <;> constructor <;> rintro d n nn _ ⟨⟩ <;> exact ⟨rfl, rfl⟩

/-- A plan that is carried out makes its instruction of operand bytes that it takes from the front. -/
theorem Plan.finish_ok {p : Plan} {got bytes rest : List Byte} {i : Instr} (h : p.finish got bytes = .ok (i, rest)) :
    ∃ d n nn ops, p.instr d n nn = some (i, ops) ∧ bytes = ops ++ rest := by
  cases p with
  | undefined => cases h
  | fixed j => cases h; exact ⟨0#8, 0#8, 0#16, [], rfl, rfl⟩
  | byte f =>
    match bytes, h with
    | n :: _, h => cases h; exact ⟨n, 0#8, 0#16, [n], rfl, rfl⟩
  | word f =>
    match bytes, h with
    | l :: hi :: _, h => cases h; exact ⟨0#8, 0#8, Machine.word hi l, _, rfl, by simp⟩
  | twoBytes f =>
    match bytes, h with
    | d :: n :: _, h => cases h; exact ⟨d, n, 0#16, [d, n], rfl, rfl⟩

theorem Plan.Encodes.finish {p : Plan} {got bytes rest : List Byte} {i : Instr} (hp : p.Encodes got)
    (h : p.finish got bytes = .ok (i, rest)) : i.WellFormed ∧ got ++ bytes = encode i ++ rest := by
  obtain ⟨d, n, nn, ops, hq, rfl⟩ := p.finish_ok h
  obtain ⟨hwf, henc⟩ := hp d n nn _ hq
  exact ⟨hwf, by rw [← henc, List.append_assoc]⟩

theorem decodeSecond_ok {plan : Byte → Plan} {first : Byte} {bytes rest : List Byte} {i : Instr}
    (hplan : ∀ op, (plan op).Encodes [first, op]) (h : decodeSecond plan first bytes = .ok (i, rest)) :
    i.WellFormed ∧ first :: bytes = encode i ++ rest := by
  cases bytes with
  | nil => cases h
  | cons op bytes => exact (hplan op).finish h

theorem decodeIndexed_ok {plan : Byte → Plan} {planCb : Byte → Byte → Plan} {first : Byte} {bytes rest : List Byte} {i : Instr}
    (hplan : ∀ op, (plan op).Encodes [first, op]) (hcb : ∀ d op, (planCb d op).Encodes [first, 0xCB#8, d, op])
    (h : decodeIndexed plan planCb first bytes = .ok (i, rest)) : i.WellFormed ∧ first :: bytes = encode i ++ rest := by
  cases bytes with
  | nil => cases h
  | cons second bytes =>
    unfold decodeIndexed at h
    dsimp only at h
    split at h
    · next hsecond =>
      subst hsecond
      match bytes, h with
      | d :: op :: _, h => exact (hcb d op).finish h
    · exact (hplan second).finish h

/-- What the decoder reads is well-formed, and its encoding stands at the front. -/
theorem decode_ok {bytes rest : List Byte} {i : Instr} (h : decode bytes = .ok (i, rest)) :
    i.WellFormed ∧ bytes = encode i ++ rest := by
  cases bytes with
  | nil => cases h
  | cons op bytes =>
    unfold decode at h
    dsimp only at h
    split at h
    · next hop => subst hop; exact decodeSecond_ok (fun op => (plans_encode 0#8 op).cb) h
    split at h
    · next hop => subst hop; exact decodeSecond_ok (fun op => (plans_encode 0#8 op).ed) h
    split at h
    · next hop =>
      subst hop
      exact decodeIndexed_ok (fun op => (plans_encode 0#8 op).ix) (fun d op => (plans_encode d op).ixCb) h
    split at h
    · next hop =>
      subst hop
      exact decodeIndexed_ok (fun op => (plans_encode 0#8 op).iy) (fun d op => (plans_encode d op).iyCb) h
    · exact (plans_encode 0#8 op).main.finish h

/-! ## The length of an encoding -/

theorem encode_ne_nil {i : Instr} (h : i.WellFormed) : encode i ≠ [] := by
  intro hnil
  have hdec := decode_encode i h
  rw [hnil] at hdec
  cases hdec

/-- An encoding has at most four bytes (R90): the first four of more would be too few. -/
theorem encode_length_le {i : Instr} (h : i.WellFormed) : (encode i).length ≤ 4 := by
  by_contra hlong
  have hrest : (encode i).drop 4 ≠ [] := by rw [Ne, List.drop_eq_nil_iff]; omega
  have hdec : decode ((encode i).take 4 ++ (encode i).drop 4) = .ok (i, []) := by
    rw [List.take_append_drop]; exact decode_encode i h
  obtain ⟨bad, htrunc⟩ := (decode_proper_prefix _ _ hrest).1 i hdec
  exact decode_ne_truncated_of_four_le (by rw [List.length_take]; omega) bad htrunc

/-- Two M1 cycles where the first byte is one of the four prefixes, else one (R38, R92). -/
theorem Instr.m1Cycles_eq {i : Instr} (h : i.WellFormed) :
    i.m1Cycles = if (encode i).headD 0#8 ∈ [0xCB#8, 0xDD#8, 0xED#8, 0xFD#8] then 2 else 1 := by
  unfold Instr.m1Cycles
  split
  · next op rest henc => simp [henc]
  · next henc => exact absurd henc (encode_ne_nil h)

end Sys2Proof

namespace Sys2Proof.Machine

/-! ## What a fetch leaves of the CPU -/

theorem AfterM1.passes {s m n : State} (h : AfterM1 m n) (hm : Passes s m) : Passes s n := by
  obtain ⟨b, -, rfl⟩ := h
  exact hm.withBoard b

theorem FetchesRest.passes {s m n : State} {got rest : List Byte} (h : FetchesRest got rest m n) (hm : Passes s m) :
    Passes s n := by
  induction rest generalizing got m with
  | nil => rw [h]; exact hm
  | cons v rest ih =>
    obtain ⟨g, u, hgap, -, hcycle, hrest⟩ := h
    have hread := (hm.gap hgap).withBoard (g.board.memRead g.tick .fetch (g.pc + BitVec.ofNat 16 got.length)).2
    refine ih hrest ?_
    split at hcycle
    · exact hcycle.passes hread
    · rw [hcycle]; exact hread

/-- Fetching changes no register (R92): PC and R move when the instruction begins. -/
theorem Fetches.passes {s m : State} {bytes : List Byte} (h : Fetches s bytes m) : Passes s m := by
  cases bytes with
  | nil => cases h
  | cons v rest =>
    obtain ⟨u, -, hm1, hrest⟩ := h
    exact hrest.passes (hm1.passes ((Passes.refl s).withBoard _))

/-! ## The instruction that a step runs -/

/-- The internal cycles that the table of R595 lists after the fetch are those of the statement. -/
theorem internalCycles_eq (s : State) (i : Instr) : internalCycles (s.jumpsRelative i) i = idlesAfterFetch s i := by
  cases i
  case jrNz | jrZ =>
    unfold idlesAfterFetch State.jumpsRelative
    cases s.regs.f.z <;> rfl
  case jrNc | jrC =>
    unfold idlesAfterFetch State.jumpsRelative
    cases s.regs.f.c <;> rfl
  case djnz =>
    unfold idlesAfterFetch State.jumpsRelative
    by_cases h : s.regs.b = 1#8
    · rw [if_pos h, h]; rfl
    · rw [if_neg h, bne_iff_ne.mpr h]; rfl
  all_goals rfl

theorem idlesAfterFetch_congr {s t : State} (h : t.regs = s.regs) (i : Instr) : idlesAfterFetch t i = idlesAfterFetch s i := by
  unfold idlesAfterFetch
  rw [h]

theorem undecided_of_ok {got rest : List Byte} {i : Instr} (h : decode (got ++ rest) = .ok (i, [])) : Undecided got rest := by
  intro front back hrest hback
  rw [hrest, ← List.append_assoc] at h
  exact (decode_proper_prefix (got ++ front) back hback).1 i h

/-- Fetched bytes that are an instruction run it after the internal cycles that follow the fetch (R92, R595). -/
theorem State.runInstruction_encode {s m x : State} {i : Instr} (hwf : i.WellFormed) (hf : Fetches s (encode i) m)
    (hx : Idles (idlesAfterFetch s i) m x) : s.runInstruction = exec i (x.fetched i) := by
  have hlen := encode_length_le hwf
  have hdec := decode_encode i hwf
  have hidle : internalCycles (m.jumpsRelative i) i = idlesAfterFetch s i :=
    (internalCycles_eq m i).trans (idlesAfterFetch_congr hf.passes.regs i)
  generalize encode i = bytes at hf hlen hdec
  cases bytes with
  | nil => cases hf
  | cons v rest =>
    calc s.runInstruction
      _ = State.fetchRest (3 - rest.length + 1) (v :: rest) m :=
        State.runInstruction_of_fetches hlen (undecided_of_ok (got := [v]) hdec) hf
      _ = m.internal (internalCycles (m.jumpsRelative i) i) fun t => exec i (t.fetched i) :=
        (State.fetchRest_cases _ _ m).1 i [] hdec
      _ = exec i (x.fetched i) := State.internal_ok m x _ _ (by rw [hidle]; exact hx)

/-- What the fetch does to the state that the instruction acts on: PC past its bytes, R[6:0] counted once or twice (R26, R38). -/
theorem State.fetched_encode (s : State) {i : Instr} (hwf : i.WellFormed) : s.fetched i = { s with
    pc := s.pc + BitVec.ofNat 16 (encode i).length
    r := (s.r &&& 0x80#8) ||| ((s.r +
      (if (encode i).headD 0#8 ∈ [0xCB#8, 0xDD#8, 0xED#8, 0xFD#8] then 2#8 else 1#8)) &&& 0x7F#8) } := by
  rw [s.fetched_eq, Instr.m1Cycles_eq hwf, refresh]
  split <;> rfl

theorem step_run {s m x : State} {i : Instr} (hrun : s.arrive.boundary s.input = .run) (hwf : i.WellFormed)
    (hf : Fetches s.arrive.resume (encode i) m) (hx : Idles (idlesAfterFetch s i) m x) : step s = exec i (x.fetched i) :=
  ((step_eq s).2.2.2 hrun).trans (State.runInstruction_encode hwf hf hx)

/-- With nothing between the machine cycles, the fetch of a step takes the encoding of the instruction that the window shows. -/
theorem State.fetches_of_decode_window {s : State} {i : Instr} {rest : List Byte} (hdma : s.board.dmas = [])
    (hquiet : s.input.between = []) (hmem : NoDeviceAtPc s.arrive) (hwin : decode s.arrive.window = .ok (i, rest)) :
    i.WellFormed ∧ Fetches s.arrive.resume (encode i) s.arrive := by
  obtain ⟨hwf, henc⟩ := decode_ok hwin
  exact ⟨hwf, State.fetches_of_arrive_window hdma hquiet hmem (encode_ne_nil hwf) ⟨rest, henc.symm⟩⟩

/-- With no inputs and no DMA on the board, arrival advances the tick and nothing else. -/
theorem State.arrive_quiet {s : State} (hin : s.inputs = []) (hdma : s.board.dmas = []) :
    s.arrive = { s with gaps := [], tick := s.tick + 1 } := by
  have hquiet : s.input = Input.quiet := by rw [State.input, hin]; rfl
  have hboard : s.arrive.board = s.board := by
    unfold State.arrive
    rw [hquiet]
    exact s.board.pollDmas_no_dma hdma
  rw [s.arrive_eq, hboard, hquiet]
  simp [hin, Input.quiet]

/-- Settles O5: the fetch takes the whole encoding, because no shorter front of it decides, and what it decodes to is the instruction;
the window of a quiet boundary begins with the encoding of what it decodes to. -/
theorem stepRunsTheDecodedInstruction : Obligations.StepRunsTheDecodedInstruction := by
  unfold Obligations.StepRunsTheDecodedInstruction
  refine ⟨fun s m x i hrun hwf hf hx => ?_, fun s i rest hdma hquiet hmem hwin => ?_, fun s => State.arrive_quiet⟩
  · rw [← x.fetched_encode hwf]
    exact step_run hrun hwf hf hx
  · obtain ⟨hwf, hf⟩ := State.fetches_of_decode_window hdma hquiet hmem hwin
    exact ⟨hwf, hf, fun n => State.idles_nil _ n hquiet⟩

end Sys2Proof.Machine

/-! # What every step keeps: the chips' registers and the cells of ROM (R62, R63, R485 to R487, R525, R536, R586) -/

namespace Sys2Proof.Machine

/-! ## One chip of a list -/

theorem forall_mem_set {α : Type} {P : α → Prop} {l : List α} (n : Nat) {y : α} (h : ∀ x ∈ l, P x) (hy : P y) :
    ∀ x ∈ l.set n y, P x := fun x hx => (List.mem_or_eq_of_mem_set hx).elim (h x) fun e => e ▸ hy

theorem forall_mem_modify {α : Type} {P : α → Prop} {l : List α} (n : Nat) {f : α → α} (h : ∀ x ∈ l, P x)
    (hf : ∀ x, P x → P (f x)) : ∀ x ∈ l.modify n f, P x := by
  rw [List.modify_eq_set_getElem?]
  cases hn : l[n]? with
  | none => exact h
  | some y => exact forall_mem_set n h (hf y (h y (List.mem_of_getElem? hn)))

/-! ## The PIO -/

/-- What a port, port B where `portB`, can hold whatever the other port does (R485, R486, R487). -/
structure PioPort.Legal (portB : Bool) (q : PioPort) : Prop where
  vector : q.vector.getLsbD 0 = false
  mode : portB = true → q.mode ≠ .bidirectional
  ready : portB = false → q.mode = .bitControl → q.ready = false

theorem Pio.Legal.port {p : Pio} (h : p.Legal) (portB : Bool) : (p.port portB).Legal portB := by
  cases portB with
  | false => exact ⟨h.vectorA, nofun, fun _ => h.readyA⟩
  | true => exact ⟨h.vectorB, fun _ => h.modeB, nofun⟩

/-- A port that keeps its vector and mode, and in mode 3 its ready output, leaves the chip legal. -/
theorem Pio.Legal.setPort {p : Pio} (h : p.Legal) (portB : Bool) {q : PioPort} (hv : q.vector = (p.port portB).vector)
    (hm : q.mode = (p.port portB).mode) (hr : q.mode = .bitControl → q.ready = (p.port portB).ready) :
    (p.setPort portB q).Legal := by
  cases portB with
  | false =>
    exact
      { vectorA := hv ▸ h.vectorA, vectorB := h.vectorB, modeB := h.modeB
        readyA := fun e => (hr e).trans (h.readyA (hm ▸ e))
        readyB := fun e ha => h.readyB e (hm ▸ ha) }
  | true =>
    exact
      { vectorA := h.vectorA, vectorB := hv ▸ h.vectorB, modeB := hm ▸ h.modeB, readyA := h.readyA
        readyB := fun e ha => (hr e).trans (h.readyB (hm ▸ e) ha) }

/-- Settling makes a chip of two legal ports legal: B RDY falls where it serves neither port (R485). -/
theorem Pio.settle_legal {p : Pio} (ha : p.a.Legal false) (hb : p.b.Legal true) : p.settle.Legal := by
  unfold Pio.settle
  split
  · exact
      { vectorA := ha.vector, vectorB := hb.vector, modeB := hb.mode rfl, readyA := ha.ready rfl
        readyB := fun _ _ => rfl }
  · next hn =>
    exact
      { vectorA := ha.vector, vectorB := hb.vector, modeB := hb.mode rfl, readyA := ha.ready rfl
        readyB := fun h3 h2 => absurd ⟨h3, h2⟩ hn }

/-- A mode word that the chip takes never puts port B into mode 2, and lowers ready for mode 3 (R485, R487). -/
theorem PioPort.setMode_legal {p q : PioPort} {portB : Bool} {w : Byte} (h : p.Legal portB)
    (hq : p.setMode portB w = .ok q) : q.Legal portB := by
  unfold PioPort.setMode at hq
  split at hq
  · cases hq; exact ⟨h.vector, fun _ => nofun, fun _ => nofun⟩
  · cases hq; exact ⟨h.vector, fun _ => nofun, fun _ => nofun⟩
  · cases portB with
    | false => cases hq; exact ⟨h.vector, nofun, fun _ => nofun⟩
    | true => cases hq
  · cases hq; exact ⟨h.vector, fun _ => nofun, fun _ _ => rfl⟩

/-- A control word that a port takes is a vector only where it is even, and else keeps the vector (R484, R486). -/
theorem PioPort.writeControl_legal {p q : PioPort} {portB : Bool} {w : Byte} (h : p.Legal portB)
    (hq : p.writeControl portB w = .ok q) : q.Legal portB := by
  unfold PioPort.writeControl at hq
  split at hq
  · cases hq; exact ⟨h.vector, h.mode, h.ready⟩
  · cases hq; exact ⟨h.vector, h.mode, h.ready⟩
  split at hq
  · next hw => cases hq; exact ⟨hw, h.mode, h.ready⟩
  split at hq
  · exact PioPort.setMode_legal h hq
  split at hq
  · cases hq; exact ⟨h.vector, h.mode, h.ready⟩
  split at hq
  · cases hq; exact ⟨h.vector, h.mode, h.ready⟩
  · cases hq

theorem Pio.Legal.writeControl {p q : Pio} (h : p.Legal) {portB : Bool} {w : Byte} (hq : p.writeControl portB w = .ok q) :
    q.Legal := by
  unfold Pio.writeControl at hq
  split at hq
  · next x hx =>
    have hport := PioPort.writeControl_legal (h.port portB) hx
    have hset : (p.setPort portB x).settle.Legal := by
      cases portB with
      | false => exact Pio.settle_legal hport (h.port true)
      | true => exact Pio.settle_legal (h.port false) hport
    cases hq
    exact ⟨hset.vectorA, hset.vectorB, hset.modeB, hset.readyA, hset.readyB⟩
  · cases hq

@[simp] theorem PioPort.noteCondition_vector (p old : PioPort) : (p.noteCondition old).vector = p.vector := by
  unfold PioPort.noteCondition
  split <;> rfl

@[simp] theorem PioPort.noteCondition_mode (p old : PioPort) : (p.noteCondition old).mode = p.mode := by
  unfold PioPort.noteCondition
  split <;> rfl

@[simp] theorem PioPort.noteCondition_ready (p old : PioPort) : (p.noteCondition old).ready = p.ready := by
  unfold PioPort.noteCondition
  split <;> rfl

theorem Pio.Legal.drive {p : Pio} (h : p.Legal) (portB : Bool) (v : Byte) : (p.drive portB v).Legal :=
  h.setPort portB (PioPort.noteCondition_vector _ _) (PioPort.noteCondition_mode _ _)
    fun _ => PioPort.noteCondition_ready _ _

@[simp] theorem PioPort.writeData_vector (p : PioPort) (w : Byte) : (p.writeData w).vector = p.vector :=
  PioPort.noteCondition_vector _ _

@[simp] theorem PioPort.writeData_mode (p : PioPort) (w : Byte) : (p.writeData w).mode = p.mode :=
  PioPort.noteCondition_mode _ _

/-- A data write raises ready in modes 0 and 2 only (R485). -/
theorem PioPort.writeData_ready (p : PioPort) (w : Byte) (h : p.mode = .bitControl) : (p.writeData w).ready = p.ready := by
  simp [PioPort.writeData, h]

theorem Pio.Legal.writeData {p : Pio} (h : p.Legal) (portB : Bool) (w : Byte) : (p.writeData portB w).Legal := by
  unfold Pio.writeData
  split
  · exact h
  · exact h.setPort portB (PioPort.writeData_vector _ _) (PioPort.writeData_mode _ _) fun e =>
      PioPort.writeData_ready _ _ ((PioPort.writeData_mode _ _).symm.trans e)

/-- A data read raises A RDY in mode 1 only, and B RDY for port A in mode 2 or for port B in mode 1 (R485). -/
theorem Pio.Legal.readData {p : Pio} (h : p.Legal) (portB : Bool) (free : Byte) : (p.readData portB free).2.Legal := by
  unfold Pio.readData
  dsimp only
  split
  · exact h
  · next hmode =>
    dsimp only
    split
    · exact h
    · exact h.setPort portB rfl rfl fun e => absurd (hmode.symm.trans e) nofun
  · next hmode =>
    cases portB with
    | false => exact ⟨h.vectorA, h.vectorB, h.modeB, h.readyA, fun _ ha => absurd hmode ha⟩
    | true => exact absurd hmode h.modeB
  · exact h

/-- A strobe lowers ready or leaves the port as it is (R485). -/
theorem Pio.Legal.strobe {p : Pio} (h : p.Legal) (portB : Bool) (v : Byte) : (p.strobe portB v).Legal := by
  unfold Pio.strobe
  split
  · exact h
  split
  · exact ⟨h.vectorA, h.vectorB, h.modeB, h.readyA, fun _ _ => rfl⟩
  · unfold PioPort.strobe
    split
    · next hmode => exact h.setPort portB rfl rfl fun e => absurd (hmode.symm.trans e) nofun
    · next hmode => exact h.setPort portB rfl rfl fun e => absurd (hmode.symm.trans e) nofun
    · next hmode => exact h.setPort portB rfl rfl fun e => absurd (hmode.symm.trans e) nofun
    · exact h.setPort portB rfl rfl fun _ => rfl

/-- The chip's reset puts both ports into mode 1 and keeps the vectors (R483). -/
theorem Pio.Legal.chipReset {p : Pio} (h : p.Legal) (free : Nat → Byte) : (p.chipReset free).Legal :=
  ⟨h.vectorA, h.vectorB, nofun, nofun, nofun⟩

/-! ## The CTC -/

@[simp] theorem Ctc.setChannel_vector (p : Ctc) (k : Nat) (c : CtcChannel) : (p.setChannel k c).vector = p.vector := by
  unfold Ctc.setChannel
  split <;> rfl

theorem Ctc.Legal.setChannel {p : Ctc} (h : p.Legal) (k : Nat) (c : CtcChannel) : (p.setChannel k c).Legal :=
  (congrArg (· &&& 0x07#8) (p.setChannel_vector k c)).trans h

theorem vectorBits_legal : ∀ v : Byte, (v &&& 0xF8#8) &&& 0x07#8 = 0#8 := by decide

/-- Of a vector word the five upper bits are kept (R528, R536). -/
theorem Ctc.Legal.write {p : Ctc} (h : p.Legal) (k : Nat) (w : Byte) : (p.write k w).Legal := by
  unfold Ctc.write
  dsimp only
  split
  · exact h.setChannel k _
  split
  · exact h.setChannel k _
  · exact vectorBits_legal w

theorem Ctc.chipReset_legal (free : Nat → Byte) : (Ctc.chipReset free).Legal := vectorBits_legal (free 16)

/-! ## The board -/

/-- The PIOs and CTCs of the board hold what they can hold. -/
structure Board.Legal (b : Board) : Prop where
  pios : ∀ p ∈ b.pios, p.Legal
  ctcs : ∀ p ∈ b.ctcs, p.Legal

theorem Board.Legal.congr {b c : Board} (h : b.Legal) (hp : c.pios = b.pios) (hc : c.ctcs = b.ctcs) : c.Legal :=
  ⟨hp ▸ h.pios, hc ▸ h.ctcs⟩

/-- The wires of the board change the DMA chips alone (R501). -/
theorem Board.Legal.wireReady {b : Board} (h : b.Legal) : b.wireReady.Legal := by
  unfold Board.wireReady
  generalize b.readyWires = ws
  induction ws generalizing b with
  | nil => exact h
  | cons w ws ih =>
    refine ih (b := b.carry w) ?_
    unfold Board.carry
    split <;> exact ⟨h.pios, h.ctcs⟩

theorem Board.Legal.leaveOverlay {b : Board} (h : b.Legal) (port : Word) : (b.leaveOverlay port).Legal := by
  unfold Board.leaveOverlay
  split
  · split <;> exact ⟨h.pios, h.ctcs⟩
  · exact h

/-- What a device answers leaves its chip legal: only a PIO's data port among them changes with a read. -/
theorem Board.Legal.answer {b : Board} (h : b.Legal) (tick : Nat) (port : Word) : (b.answer tick port).2.Legal := by
  unfold Board.answer
  dsimp only
  split
  · exact h
  · split <;> exact ⟨h.pios, h.ctcs⟩
  · split
    · exact h
    · next p hp =>
      split
      · exact h
      · exact ⟨forall_mem_set _ h.pios ((h.pios p (List.mem_of_getElem? hp)).readData _ _), h.ctcs⟩
  · split
    · exact h
    · split <;> exact ⟨h.pios, h.ctcs⟩
  · split <;> exact h
  · split <;> exact ⟨h.pios, h.ctcs⟩

theorem Board.Legal.ioRead {b : Board} (h : b.Legal) (tick : Nat) (port : Word) : (b.ioRead tick port).2.Legal := by
  have hleft := (h.wireReady.answer tick port).leaveOverlay port
  exact ⟨hleft.pios, hleft.ctcs⟩

theorem Board.Legal.deliver {b c : Board} (h : b.Legal) {tick : Nat} {port : Word} {v : Byte}
    (hc : b.deliver tick port v = .ok c) : c.Legal := by
  unfold Board.deliver at hc
  split at hc
  · cases hc; exact h
  · cases hc; exact h
  · split at hc
    · cases hc; exact h
    · next p hp =>
      have hlegal := h.pios p (List.mem_of_getElem? hp)
      split at hc
      · split at hc
        · next q hq => cases hc; exact ⟨forall_mem_set _ h.pios (hlegal.writeControl hq), h.ctcs⟩
        · cases hc
      · cases hc; exact ⟨forall_mem_set _ h.pios (hlegal.writeData _ _), h.ctcs⟩
  · split at hc
    · cases hc; exact h
    · split at hc <;> cases hc <;> exact ⟨h.pios, h.ctcs⟩
  · split at hc
    · cases hc; exact h
    · next p hp =>
      cases hc
      exact ⟨h.pios, forall_mem_set _ h.ctcs ((h.ctcs p (List.mem_of_getElem? hp)).write _ _)⟩
  · split at hc <;> cases hc <;> exact ⟨h.pios, h.ctcs⟩

theorem Board.Legal.ioWrite {b c : Board} (h : b.Legal) {tick : Nat} {port : Word} {v : Byte}
    (hc : b.ioWrite tick port v = .ok c) : c.Legal := by
  unfold Board.ioWrite at hc
  split at hc
  · next d hd => cases hc; exact ⟨(h.deliver hd).pios, (h.deliver hd).ctcs⟩
  · cases hc

/-- A channel of a CTC of the board replaced, whatever is logged. -/
theorem Board.Legal.setChannel {b : Board} (h : b.Legal) {n : Nat} {p : Ctc} (hp : b.ctcs[n]? = some p) (k : Nat)
    (c : CtcChannel) (l : List BusEvent) : { b with ctcs := b.ctcs.set n (p.setChannel k c), log := l }.Legal :=
  ⟨h.pios, forall_mem_set _ h.ctcs ((h.ctcs p (List.mem_of_getElem? hp)).setChannel k c)⟩

theorem Board.Legal.clockChannel {b : Board} (h : b.Legal) (n k : Nat) : (b.clockChannel n k).Legal := by
  unfold Board.clockChannel
  split
  · exact h
  · next p hp => exact h.setChannel hp k _ _

theorem Board.Legal.clockCtc {b : Board} (h : b.Legal) (n count : Nat) : (b.clockCtc n count).Legal := by
  induction count generalizing b with
  | zero => exact h
  | succ count ih =>
    exact ih ((((h.clockChannel n 0).clockChannel n 1).clockChannel n 2).clockChannel n 3)

theorem Board.Legal.sioSent {b : Board} (h : b.Legal) (n : Nat) (channelB : Bool) : (b.sioSent n channelB).Legal := by
  unfold Board.sioSent
  split
  · exact h
  · split <;> exact ⟨h.pios, h.ctcs⟩

theorem Board.Legal.modifyPio {b : Board} (h : b.Legal) (n : Nat) {f : Pio → Pio} (hf : ∀ p : Pio, p.Legal → (f p).Legal) :
    { b with pios := b.pios.modify n f }.Legal := ⟨forall_mem_modify n h.pios hf, h.ctcs⟩

theorem Board.Legal.modifyCtc {b : Board} (h : b.Legal) (n : Nat) {f : Ctc → Ctc} (hf : ∀ p : Ctc, p.Legal → (f p).Legal) :
    { b with ctcs := b.ctcs.modify n f }.Legal := ⟨h.pios, forall_mem_modify n h.ctcs hf⟩

theorem Board.Legal.chipEvent {b : Board} (h : b.Legal) (tick : Nat) (e : ChipEvent) : (b.chipEvent tick e).Legal := by
  cases e
  case pioStrobe n portB v => exact h.modifyPio n fun _ hp => hp.strobe portB v
  case pioLines n portB v => exact h.modifyPio n fun _ hp => hp.drive portB v
  case pioReset n => exact h.modifyPio n fun _ hp => hp.chipReset _
  case sioSent n channelB => exact h.sioSent n channelB
  case ctcClocks n count => exact h.clockCtc n count
  case ctcEdge n k rising =>
    unfold Board.chipEvent
    dsimp only
    split
    · exact h
    · next p hp => exact h.setChannel hp k _ _
  case ctcReset n => exact h.modifyCtc n fun _ _ => Ctc.chipReset_legal _
  case sioReceive | sioBreak | sioFlag | sioModem | sioReset | dmaReady | dmaReset | ramGuard => exact ⟨h.pios, h.ctcs⟩

theorem Board.Legal.acknowledge {b : Board} (h : b.Legal) (u : IntUnit) : (b.acknowledge u).Legal := by
  cases u with
  | pio n portB => exact h.modifyPio n fun _ hp => hp.setPort portB rfl rfl fun _ => rfl
  | ctc n k => exact h.modifyCtc n fun _ hp => hp.setChannel k _
  | sio | dma => exact ⟨h.pios, h.ctcs⟩

theorem Board.Legal.endService {b : Board} (h : b.Legal) (u : IntUnit) : (b.endService u).Legal := by
  cases u with
  | pio n portB => exact h.modifyPio n fun _ hp => hp.setPort portB rfl rfl fun _ => rfl
  | ctc n k => exact h.modifyCtc n fun _ hp => hp.setChannel k _
  | sio | dma => exact ⟨h.pios, h.ctcs⟩

theorem Board.Legal.notifyReti {b : Board} (h : b.Legal) : b.notifyReti.Legal := by
  unfold Board.notifyReti
  split
  · next u _ => exact ⟨(h.endService u).pios, (h.endService u).ctcs⟩
  · exact ⟨h.pios, h.ctcs⟩

/-- Whatever happens to a board, its chips stay legal. -/
theorem Board.legal_law : Board.Law fun b c => b.Legal → c.Legal where
  refl _ := id
  trans h h' := h' ∘ h
  memRead b t cy a h := by
    obtain ⟨i, l, e⟩ := b.memRead_eq t cy a
    rw [e]; exact ⟨h.pios, h.ctcs⟩
  poke b a v h := h.congr (b.poke_pios a v) (b.poke_ctcs a v)
  ioRead _ t port h := h.ioRead t port
  ioWrite _ _ _ _ _ hc h := h.ioWrite hc
  event _ t e h := h.chipEvent t e
  dmas _ _ _ _ h := ⟨h.pios, h.ctcs⟩
  acknowledge _ u h := h.acknowledge u
  notifyReti _ h := h.notifyReti
  overlay _ h := ⟨h.pios, h.ctcs⟩

/-! ## The statements -/

/-- Settles O18: by two laws of all that can happen to a board, one for memory and one for the chips. -/
theorem everyStepKeepsTheInvariant : Obligations.EveryStepKeepsTheInvariant := by
  unfold Obligations.EveryStepKeepsTheInvariant
  intro s t hinv hstep
  have hmem := (Board.writesRam_law.step s t hstep).wf hinv.mem
  have hchips := Board.legal_law.step s t hstep ⟨hinv.pios, hinv.ctcs⟩
  exact ⟨hmem, hchips.pios, hchips.ctcs⟩

theorem Board.hasRegion_iff (b : Board) (r : Region) : b.hasRegion r ↔ r ∈ b.allRegions := by
  unfold Board.hasRegion Board.allRegions
  cases b.overlay <;> simp [or_comm]

/-- Settles O20: the law of memory and maps says it of every step, whoever has the bus. -/
theorem noStepChangesRom : Obligations.NoStepChangesRom := by
  unfold Obligations.NoStepChangesRom
  intro s t hstep
  have hlaw := Board.writesRam_law.step s t hstep
  refine ⟨fun cell hrom => hlaw.rom cell fun r hr => hrom r ((s.board.hasRegion_iff r).mpr hr), hlaw.maps.memmap,
    hlaw.maps.iomap, hlaw.maps.chain, hlaw.maps.overlay, fun r => ?_⟩
  rw [Board.hasRegion_iff, Board.hasRegion_iff, hlaw.maps.allRegions]

end Sys2Proof.Machine

/-! # What a machine cycle does, and what falls between two (R62, R63, R65, R78, R460, R591) -/

namespace Sys2Proof.Machine

/-! ## One cycle -/

/-- Where a memory-mapped device answers, a read returns its next byte and is logged (R62, R470). -/
theorem State.memRead_device (s : State) (a : Word) (h : s.board.isDevice a = true) :
    s.memRead a = (s.board.memIn.headD (Config.openBus s.tick .data a), { s with board := { s.board with
      memIn := s.board.memIn.tail
      log := .memRead a (s.board.memIn.headD (Config.openBus s.tick .data a)) :: s.board.log } }) := by
  rcases s.board.memRead_cases s.tick .data a with ⟨-, e⟩ | ⟨hd, -⟩
  · simp only [State.memRead, e]
  · rw [h] at hd; cases hd

/-- Settles O7: each clause is a law of one operation, the gap, the read and the write. -/
theorem machineCyclesAndTheirGaps : Obligations.MachineCyclesAndTheirGaps := by
  unfold Obligations.MachineCyclesAndTheirGaps
  refine ⟨State.gap_eq, State.gap_nil, State.memRead_memory, fun s a hdev => ⟨s.memRead_read a, ?_, ?_⟩,
    fun s a v => ⟨s.write_stored a v, ?_⟩⟩
  · rw [s.memRead_device a hdev]
  · intro v rest hin
    rw [s.memRead_device a hdev, hin]
    rfl
  · obtain ⟨m, l, e⟩ := s.write_eq a v
    rw [e]

/-! ## Another master between two cycles -/

/-- The state after a gap in which nothing happens. -/
def State.passGap (s : State) : State := { s with gaps := s.gaps.tail }

/-- The state after a gap in which the external master gets the bus, with no access made yet (R460). -/
def State.grantGap (s : State) : State := { s with gaps := s.gaps.tail, board := s.board.showGrant true }

/-- The gap in which the external master asks for the bus and stores one byte. -/
def Gap.masterStores (a : Word) (w : Byte) : Gap := { Gap.quiet with busrq := true, master := [.memWrite a w] }

/-- A gap without RESET, in which the external master acts only with the bus, on a board without a DMA (R460). -/
theorem State.gap_no_dma {s : State} {g : Gap} {rest : List Gap} {c : Board} (hgaps : s.gaps = g :: rest)
    (hreset : g.reset = false) (hmaster : g.master = [] ∨ g.busrq = true) (hevents : g.events = [])
    (hdma : s.board.dmas = []) (hc : (s.board.showGrant g.busrq).masterAccesses s.tick g.master = .ok c)
    (hcdma : c.dmas = []) : s.gap = .ok { s with gaps := s.gaps.tail, board := c } := by
  have hduty : ¬(g.master ≠ [] ∧ (g.reset = true ∨ g.busrq = false)) := by
    rw [hreset]
    rcases hmaster with h | h <;> simp [h]
  have hpoll : (s.board.events s.tick g.events).pollDmas = s.board := by
    rw [hevents]; exact s.board.pollDmas_no_dma hdma
  have hrelease := s.board.release_no_dma c s.tick g hc hcdma
  rw [State.gap, hgaps]
  dsimp only [State.takeGap]
  rw [if_neg hduty, if_neg (by rw [hreset]; exact nofun), hpoll, hrelease]
  rfl

theorem State.gap_quiet {s : State} {rest : List Gap} (hdma : s.board.dmas = []) (hgaps : s.gaps = Gap.quiet :: rest) :
    s.gap = .ok s.passGap := State.gap_no_dma hgaps rfl (.inl rfl) rfl hdma rfl hdma

theorem State.gap_masterStores {s : State} {a : Word} {w : Byte} {rest : List Gap} (hdma : s.board.dmas = [])
    (hgaps : s.gaps = Gap.masterStores a w :: rest) : s.gap = .ok (s.grantGap.write a w) :=
  State.gap_no_dma hgaps rfl (.inr rfl) rfl hdma rfl ((Board.poke_dmas _ a w).trans hdma)

@[simp] theorem State.isRam_write (s : State) (a c : Word) (v : Byte) :
    (s.write a v).board.isRam c ↔ s.board.isRam c := Board.isRam_poke s.board a c v

@[simp] theorem State.isRam_passGap (s : State) (c : Word) : s.passGap.board.isRam c ↔ s.board.isRam c := Iff.rfl

@[simp] theorem State.isRam_grantGap (s : State) (c : Word) : s.grantGap.board.isRam c ↔ s.board.isRam c := Iff.rfl

@[simp] theorem State.sameCell_write (s : State) (a c c' : Word) (v : Byte) :
    (s.write a v).board.sameCell c c' ↔ s.board.sameCell c c' := Board.sameCell_poke s.board a c c' v

@[simp] theorem State.sameCell_passGap (s : State) (c c' : Word) :
    s.passGap.board.sameCell c c' ↔ s.board.sameCell c c' := Iff.rfl

@[simp] theorem State.sameCell_grantGap (s : State) (c c' : Word) :
    s.grantGap.board.sameCell c c' ↔ s.board.sameCell c c' := Iff.rfl

/-- INC (HL) writes last, over whatever the state `n` before its write cycle holds (R65, R237). -/
theorem exec_incHl_read {s m n : State} (hm : s.gap = .ok m) (hn : (m.memRead s.hl).2.gap = .ok n)
    (hram : n.board.isRam s.hl) : ∃ t, exec .incHl s = .next t ∧ t.read s.hl = (m.memRead s.hl).1 + 1#8 :=
  ⟨_, s.modify_ok m n s.hl incByte hm hn, n.write_read_same s.hl _ hram⟩

/-- The second write cycle of LD (nn),HL leaves what the state `n` before it holds at nn, where nn+1 is another cell (R167). -/
theorem exec_ldMemHl_read {s m n : State} {nn : Word} (hm : s.gap = .ok m) (hn : (m.write nn (lo s.hl)).gap = .ok n)
    (hram : n.board.isRam (nn + 1#16)) (hcell : ¬n.board.sameCell (nn + 1#16) nn) :
    ∃ t, exec (.ldMemHl nn) s = .next t ∧ t.read nn = n.read nn ∧ t.read (nn + 1#16) = s.regs.h :=
  ⟨_, s.writeWordThen_ok m n nn s.hl finish hm hn, n.write_read_other (nn + 1#16) nn _ fun h => hcell h.2,
    (n.write_read_same (nn + 1#16) _ hram).trans (hi_word _ _)⟩

/-- What the other master stored between the cycles of INC (HL) is lost (R65, R591). -/
theorem exec_incHl_masterStores {s : State} {w : Byte} (hdma : s.board.dmas = [])
    (hgaps : s.gaps = [Gap.quiet, Gap.masterStores s.hl w]) (hram : s.board.isRam s.hl) :
    ∃ t, exec .incHl s = .next t ∧ t.read s.hl = s.read s.hl + 1#8 := by
  have hread : s.passGap.memRead s.hl = (s.read s.hl, s.passGap) :=
    s.passGap.memRead_memory s.hl (s.board.not_isDevice_of_isRam _ hram)
  have hgap : (s.passGap.memRead s.hl).2.gap = .ok (s.passGap.grantGap.write s.hl w) := by
    rw [hread]; exact State.gap_masterStores hdma (congrArg List.tail hgaps)
  have hexec := exec_incHl_read (State.gap_quiet hdma hgaps) hgap (by simpa using hram)
  rwa [hread] at hexec

/-- What the other master stored over the first byte of LD (nn),HL stays (R65, R591). -/
theorem exec_ldMemHl_masterStores {s : State} {w : Byte} (hdma : s.board.dmas = [])
    (hgaps : s.gaps = [Gap.quiet, Gap.masterStores s.hl w]) (hram : s.board.isRam s.hl)
    (hram' : s.board.isRam (s.hl + 1#16)) (hcell : ¬s.board.sameCell (s.hl + 1#16) s.hl) :
    ∃ t, exec (.ldMemHl s.hl) s = .next t ∧ t.read s.hl = w ∧ t.read (s.hl + 1#16) = s.regs.h := by
  have hgap : (s.passGap.write s.hl (lo s.hl)).gap = .ok ((s.passGap.write s.hl (lo s.hl)).grantGap.write s.hl w) :=
    State.gap_masterStores ((Board.poke_dmas _ _ _).trans hdma) (congrArg List.tail hgaps)
  have hexec := exec_ldMemHl_read (State.gap_quiet hdma hgaps) hgap (by simpa using hram') (by simpa using hcell)
  rwa [State.write_read_same _ s.hl w (by simpa using hram)] at hexec

/-- Settles O9: the master's byte lies between the two cycles, and is lost or stays by which cell the second one writes. -/
theorem anotherMasterBetweenTheCycles : Obligations.AnotherMasterBetweenTheCycles := by
  unfold Obligations.AnotherMasterBetweenTheCycles
  exact fun s w hdma hgaps => ⟨exec_incHl_masterStores hdma hgaps, exec_ldMemHl_masterStores hdma hgaps⟩

end Sys2Proof.Machine

/-! # What an instruction leaves of memory, the devices and PC where nothing falls between its cycles (R61 to R63, R330) -/

namespace Sys2Proof.Machine

/-- The board `c` after cycles of the instruction `i` that began with the board `b`, by the cycles that `i` has. -/
structure LeavesBoard (i : Instr) (b c : Board) : Prop where
  mem : i.storesMemory = false → c.mem = b.mem
  devices : i.reachesDevices = false → c = { b with mem := c.mem, memIn := c.memIn, log := c.log }
  all : i.reachesDevices = false → i.usesMemory = false → c = b

/-- `m` is reached from `s` by cycles of the instruction `i`, with no gap listed before or after. -/
structure Undisturbed (i : Instr) (s m : State) : Prop where
  gaps : m.gaps = []
  pc : m.pc = s.pc
  board : LeavesBoard i s.board m.board

/-- What `i` leaves from `s` to its end `t`. -/
structure LeavesFrame (i : Instr) (s t : State) : Prop where
  board : LeavesBoard i s.board t.board
  pc : i.movesPc = false → t.pc = s.pc

theorem Undisturbed.refl (i : Instr) {s : State} (h : s.gaps = []) : Undisturbed i s s :=
  ⟨h, rfl, fun _ => rfl, fun _ => rfl, fun _ _ => rfl⟩

theorem usesMemory_of_storesMemory {i : Instr} (h : i.storesMemory = true) : i.usesMemory = true := by
  unfold Instr.usesMemory
  rw [h, Bool.true_or]

section
variable {i : Instr} {s m : State} {Q : State → Prop}

/-- A change of memory, of what memory-mapped devices will answer and of the log, by an instruction with such cycles. -/
theorem Undisturbed.access (h : Undisturbed i s m) (hu : i.usesMemory = true) {mem : Memory} {mi : List Byte}
    {l : List BusEvent} (hmem : i.storesMemory = false → mem = m.board.mem) :
    Undisturbed i s { m with board := { m.board with mem := mem, memIn := mi, log := l } } where
  gaps := h.gaps
  pc := h.pc
  board :=
    { mem := fun hs => (hmem hs).trans (h.board.mem hs)
      devices := fun hd => by rw [h.board.devices hd]
      all := fun _ hn => absurd (hu.symm.trans hn) nofun }

/-- Another board with the memory content of before, by an instruction that reaches devices. -/
theorem Undisturbed.io (h : Undisturbed i s m) (hd : i.reachesDevices = true) {b : Board} (hb : m.board.KeepsMemory b) :
    Undisturbed i s { m with board := b } where
  gaps := h.gaps
  pc := h.pc
  board :=
    { mem := fun hs => hb.mem.trans (h.board.mem hs)
      devices := fun hn => absurd (hd.symm.trans hn) nofun
      all := fun hn => absurd (hd.symm.trans hn) nofun }

theorem Undisturbed.cycle {k : State → Result} (h : Undisturbed i s m) (hk : Every Q (k m)) : Every Q (m.cycle k) := by
  rw [m.cycle_ok m k (m.gap_nil h.gaps)]
  exact hk

theorem Undisturbed.internal {k : State → Result} (h : Undisturbed i s m) (c : Nat) (hk : Every Q (k m)) :
    Every Q (m.internal c k) := by
  rw [m.internal_ok m c k (m.idles_nil c h.gaps)]
  exact hk

theorem Undisturbed.readThen {a : Word} {k : Byte → State → Result} (h : Undisturbed i s m) (hu : i.usesMemory = true)
    (hk : ∀ v n, Undisturbed i s n → Every Q (k v n)) : Every Q (m.readThen a k) := by
  refine h.cycle (hk _ _ ?_)
  obtain ⟨mi, l, e⟩ := m.memRead_eq a
  rw [e]
  exact h.access hu fun _ => rfl

theorem Undisturbed.writeThen {a : Word} {v : Byte} {k : State → Result} (h : Undisturbed i s m) (hs : i.storesMemory = true)
    (hk : ∀ n, Undisturbed i s n → Every Q (k n)) : Every Q (m.writeThen a v k) := by
  refine h.cycle (hk _ ?_)
  obtain ⟨mem, l, e⟩ := m.write_eq a v
  rw [e]
  exact h.access (usesMemory_of_storesMemory hs) fun hn => absurd (hs.symm.trans hn) nofun

theorem Undisturbed.readWordThen {a : Word} {k : Word → State → Result} (h : Undisturbed i s m) (hu : i.usesMemory = true)
    (hk : ∀ w n, Undisturbed i s n → Every Q (k w n)) : Every Q (m.readWordThen a k) :=
  h.readThen hu fun _ _ h => h.readThen hu fun _ _ h => hk _ _ h

theorem Undisturbed.writeWordThen {a w : Word} {k : State → Result} (h : Undisturbed i s m) (hs : i.storesMemory = true)
    (hk : ∀ n, Undisturbed i s n → Every Q (k n)) : Every Q (m.writeWordThen a w k) :=
  h.writeThen hs fun _ h => h.writeThen hs hk

/-- A push goes on with SP two lower (R178). -/
theorem Undisturbed.pushThen {w : Word} {k : State → Result} (h : Undisturbed i s m) (hs : i.storesMemory = true)
    (hk : ∀ n sp, Undisturbed i s n → Every Q (k { n with sp := sp })) : Every Q (m.pushThen w k) :=
  h.writeThen hs fun _ h => h.writeThen hs fun _ h => hk _ _ h

/-- A pop goes on with SP two higher (R181). -/
theorem Undisturbed.popThen {k : Word → State → Result} (h : Undisturbed i s m) (hu : i.usesMemory = true)
    (hk : ∀ w n sp, Undisturbed i s n → Every Q (k w { n with sp := sp })) : Every Q (m.popThen k) :=
  h.readWordThen hu fun _ _ h => hk _ _ _ h

theorem Undisturbed.portReadThen {port : Word} {k : Byte → State → Result} (h : Undisturbed i s m)
    (hd : i.reachesDevices = true) (hk : ∀ v n, Undisturbed i s n → Every Q (k v n)) : Every Q (m.portReadThen port k) :=
  h.cycle (hk _ _ (h.io hd (m.board.ioRead_keeps _ _)))

theorem Undisturbed.portWriteThen {port : Word} {v : Byte} {k : State → Result} (h : Undisturbed i s m)
    (hd : i.reachesDevices = true) (hk : ∀ n, Undisturbed i s n → Every Q (k n)) : Every Q (m.portWriteThen port v k) := by
  refine h.cycle ?_
  split
  · next b hb => exact hk _ (h.io hd (m.board.ioWrite_keeps b _ _ _ hb))
  · exact .refused

/-- The end of an instruction in a state `u` with the board of `m`, and its PC unless the instruction moves PC. -/
theorem Undisturbed.finish {u : State} (h : Undisturbed i s m) (hb : u.board = m.board) (hpc : i.movesPc = false → u.pc = m.pc) :
    Every (LeavesFrame i s) (finish u) := by
  have hboard : LeavesBoard i s.board u.board := hb ▸ h.board
  exact .finish ⟨hboard, fun hm => (hpc hm).trans h.pc⟩

theorem Undisturbed.modify {a : Word} {g : Flags → Flags → Byte → Byte × Flags} (h : Undisturbed i s m)
    (hs : i.storesMemory = true) : Every (LeavesFrame i s) (m.modify a g) :=
  h.readThen (usesMemory_of_storesMemory hs) fun _ _ h => h.writeThen hs fun _ h => h.finish rfl fun _ => rfl

theorem Undisturbed.rewrite {a : Word} {g : Byte → Byte} (h : Undisturbed i s m) (hs : i.storesMemory = true) :
    Every (LeavesFrame i s) (m.rewrite a g) :=
  h.readThen (usesMemory_of_storesMemory hs) fun _ _ h => h.writeThen hs fun _ h => h.finish rfl fun _ => rfl

theorem Undisturbed.rotateDigits {g : Byte → Byte → Byte × Byte} (h : Undisturbed i s m) (hs : i.storesMemory = true) :
    Every (LeavesFrame i s) (m.rotateDigits g) :=
  h.readThen (usesMemory_of_storesMemory hs) fun _ _ h => h.internal _ <|
    h.writeThen hs fun _ h => h.finish rfl fun _ => rfl

/-- An exchange with the top of the stack (R188). -/
theorem Undisturbed.exchangeTop {w : Word} {k : Word → State → Result} (h : Undisturbed i s m) (hs : i.storesMemory = true)
    (hk : ∀ v n, Undisturbed i s n → Every Q (k v n)) : Every Q (m.exchangeTop w k) :=
  h.readWordThen (usesMemory_of_storesMemory hs) fun _ _ h => h.writeThen hs fun _ h => h.writeThen hs fun _ h => hk _ _ h

theorem Undisturbed.call {target : Word} (h : Undisturbed i s m) (hs : i.storesMemory = true) (hpc : i.movesPc = true) :
    Every (LeavesFrame i s) (m.call target) :=
  h.pushThen hs fun _ _ h => h.finish rfl fun hn => absurd (hpc.symm.trans hn) nofun

theorem Undisturbed.ret (h : Undisturbed i s m) (hu : i.usesMemory = true) (hpc : i.movesPc = true) :
    Every (LeavesFrame i s) m.ret :=
  h.popThen hu fun _ _ _ h => h.finish rfl fun hn => absurd (hpc.symm.trans hn) nofun

/-- The end of a block instruction: it sets PC back only where it is a form that moves PC (R201). -/
theorem Undisturbed.finishBlock {u : State} {again : Bool} (h : Undisturbed i s m) (hb : u.board = m.board)
    (hpc : u.pc = m.pc) (hagain : i.movesPc = false → again = false) :
    Every (LeavesFrame i s) (Machine.finish (u.repeatIf again)) :=
  h.finish ((State.repeatIf_board u again).trans hb) fun hn => by rw [hagain hn]; exact hpc

theorem Undisturbed.blockTransfer {down again : Bool} (h : Undisturbed i s m) (hs : i.storesMemory = true)
    (hagain : i.movesPc = false → again = false) : Every (LeavesFrame i s) (m.blockTransfer down again) :=
  h.readThen (usesMemory_of_storesMemory hs) fun _ _ h => h.writeThen hs fun _ h => h.internal _ <|
    h.finishBlock rfl rfl hagain

theorem Undisturbed.blockSearch {down repeats : Bool} (h : Undisturbed i s m) (hu : i.usesMemory = true)
    (hrepeats : i.movesPc = false → repeats = false) : Every (LeavesFrame i s) (m.blockSearch down repeats) :=
  h.readThen hu fun _ _ h => h.internal _ <| h.finishBlock rfl rfl fun hn => by
    rw [State.searchAgain, hrepeats hn, Bool.false_and, Bool.false_and]

theorem Undisturbed.blockInput {down again : Bool} (h : Undisturbed i s m) (hd : i.reachesDevices = true)
    (hs : i.storesMemory = true) (hagain : i.movesPc = false → again = false) :
    Every (LeavesFrame i s) (m.blockInput down again) :=
  h.portReadThen hd fun _ _ h => h.writeThen hs fun _ h => h.internal _ <| h.finishBlock rfl rfl hagain

theorem Undisturbed.blockOutput {down again : Bool} (h : Undisturbed i s m) (hu : i.usesMemory = true)
    (hd : i.reachesDevices = true) (hagain : i.movesPc = false → again = false) :
    Every (LeavesFrame i s) (m.blockOutput down again) :=
  h.readThen hu fun _ _ h => h.portWriteThen hd fun _ h => h.internal _ <| h.finishBlock rfl rfl hagain

end

/-- Every next state of an instruction, where no gap is listed, is left as its classes say. -/
theorem exec_leavesFrame (i : Instr) {s : State} (hs : s.gaps = []) : Every (LeavesFrame i s) (exec i s) := by
  have h := Undisturbed.refl i hs
  cases i <;> dsimp only [exec]
  -- no machine cycle after the fetch
  case ldRR | ldRN | ldAI | ldAR | ldIA | ldRA | ldDdNn | ldIxNn | ldIyNn | ldSpHl | ldSpIx | ldSpIy | exDeHl | exAfAf | exx |
      addAR | addAN | adcAR | adcAN | subR | subN | sbcAR | sbcAN | andR | andN | xorR | xorN | orR | orN | cpR | cpN | incR |
      decR | daa | cpl | neg | ccf | scf | addHlSs | addIxPp | addIyRr | adcHlSs | sbcHlSs | incSs | incIx | incIy | decSs |
      decIx | decIy | rlca | rrca | rla | rra | rlcR | rrcR | rlR | rrR | slaR | sraR | srlR | bitR | setR | resR | nop | halt |
      di | im0 | im1 | im2 =>
    refine h.finish ?_ fun _ => ?_ <;> simp [State.accumulate, State.modifyReg, State.testBit]
  case jpNn | jpCcNn | jpHl | jpIx | jpIy | jrE | jrNz | jrZ | jrNc | jrC | djnz => exact h.finish (by simp) nofun
  case ei => exact .next ⟨h.board, fun _ => rfl⟩
  -- reads
  case ldRHl | ldRIx | ldRIy | ldABc | ldADe | ldAMem | addAHl | addAIx | addAIy | adcAHl | adcAIx | adcAIy | subHl | subIx |
      subIy | sbcAHl | sbcAIx | sbcAIy | andHl | andIx | andIy | xorHl | xorIx | xorIy | orHl | orIx | orIy | cpHl | cpIx | cpIy |
      bitHl | bitIx | bitIy =>
    refine h.readThen rfl fun _ _ h => h.finish ?_ fun _ => ?_ <;> simp [State.accumulate, State.testBit]
  case ldHlMem | ldDdMem | ldIxMem | ldIyMem => exact h.readWordThen rfl fun _ _ h => h.finish (by simp) (by simp)
  -- writes
  case ldHlR | ldIxR | ldIyR | ldHlN | ldIxN | ldIyN | ldBcA | ldDeA | ldMemA =>
    exact h.writeThen rfl fun _ h => h.finish rfl fun _ => rfl
  case ldMemHl | ldMemDd | ldMemIx | ldMemIy => exact h.writeWordThen rfl fun _ h => h.finish rfl fun _ => rfl
  -- read-modify-write
  case incHl | incIxd | incIyd | decHl | decIxd | decIyd | rlcHl | rlcIx | rlcIy | rrcHl | rrcIx | rrcIy | rlHl | rlIx | rlIy |
      rrHl | rrIx | rrIy | slaHl | slaIx | slaIy | sraHl | sraIx | sraIy | srlHl | srlIx | srlIy =>
    exact h.modify rfl
  case setHl | setIx | setIy | resHl | resIx | resIy => exact h.rewrite rfl
  case rld | rrd => exact h.rotateDigits rfl
  -- the stack
  case pushQq | pushIx | pushIy => exact h.pushThen rfl fun _ _ h => h.finish rfl fun _ => rfl
  case popQq | popIx | popIy => exact h.popThen rfl fun _ _ _ h => h.finish (by simp) (by simp)
  case exSpHl | exSpIx | exSpIy => exact h.exchangeTop rfl fun _ _ h => h.finish rfl fun _ => rfl
  case callNn | rstP => exact h.call rfl rfl
  case callCcNn =>
    unfold execCallCcNn
    split
    · exact h.call rfl rfl
    · exact h.finish rfl nofun
  case ret => exact h.ret rfl rfl
  case retn => exact Undisturbed.ret (m := s.restoreEnable) ⟨h.gaps, h.pc, h.board⟩ rfl rfl
  case retCc =>
    unfold execRetCc
    split
    · exact h.ret rfl rfl
    · exact h.finish rfl nofun
  case reti => exact (h.io rfl s.board.notifyReti_keeps.1).ret rfl rfl
  -- blocks
  case ldi | ldd => exact h.blockTransfer rfl fun _ => rfl
  case ldir | lddr => exact h.blockTransfer rfl nofun
  case cpi | cpd => exact h.blockSearch rfl fun _ => rfl
  case cpir | cpdr => exact h.blockSearch rfl nofun
  case ini | ind => exact h.blockInput rfl rfl fun _ => rfl
  case inir | indr => exact h.blockInput rfl rfl nofun
  case outi | outd => exact h.blockOutput rfl rfl fun _ => rfl
  case otir | otdr => exact h.blockOutput rfl rfl nofun
  -- I/O
  case inAN | inRC => exact h.portReadThen rfl fun _ _ h => h.finish (by simp) (by simp)
  case outNA | outCR => exact h.portWriteThen rfl fun _ h => h.finish rfl fun _ => rfl

/-- Settles O25: each next state is left as the classes of its instruction say, cycle by cycle. -/
theorem otherInstructionsLeaveMemoryDevicesAndPc : Obligations.OtherInstructionsLeaveMemoryDevicesAndPc := by
  unfold Obligations.OtherInstructionsLeaveMemoryDevicesAndPc
  intro i s t hs h
  obtain ⟨⟨hmem, hdevices, hall⟩, hpc⟩ := exec_leavesFrame i hs t h
  exact ⟨hmem, hdevices, hall, hpc⟩

end Sys2Proof.Machine

/-! # Block instructions, input and output (R66, R201 to R210, R370 to R387, R595) -/

namespace Sys2Proof.Machine

/-! ## States after machine cycles -/

theorem Passes.idles {s m n : State} {c : Nat} (h : Passes s m) (hn : Idles c m n) : Passes s n := by
  induction c generalizing m with
  | zero => rw [hn]; exact h
  | succ c ih =>
    obtain ⟨x, hx, hn⟩ := hn
    exact ih (h.gap hx) hn

/-- A state after machine cycles is the first one but for its board and gaps. -/
theorem Passes.exists_eq {s m : State} (h : Passes s m) : ∃ b g, m = { s with board := b, gaps := g } := ⟨_, _, h.eq⟩

/-! ## Counters, pointers and the repeat -/

/-- What a block instruction adds to its pointers. -/
def pointerStep (down : Bool) : Word := if down then 0xFFFF#16 else 1#16

theorem stepPointer_eq (down : Bool) (w : Word) : stepPointer down w = w + pointerStep down := by
  cases down with
  | false => rfl
  | true => exact BitVec.sub_eq_add_neg w 1#16

/-- A counter that goes on is not at its last count. -/
theorem sub_one_bne_zero {n : Nat} (w : BitVec n) : (w - 1#n != 0#n) = (w != 1#n) := by
  by_cases h : w = 1#n
  · simp [h]
  · rw [bne_iff_ne.mpr h, bne_iff_ne, ne_eq, BitVec.sub_eq_iff_eq_add, BitVec.zero_add]
    exact h

theorem State.repeatIf_eq (s : State) (again : Bool) :
    s.repeatIf again = { s with pc := if again then s.pc - 2#16 else s.pc } := by cases again <;> rfl

/-- The gap of the internal cycle of a repeat. -/
theorem idles_again {again : Bool} {s p : State} (h : Idles (if again then 1 else 0) s p) : Idles again.toNat s p := by
  cases again <;> exact h

/-! ## Block transfer -/

/-- The end of a block transfer, in a state after its cycles. -/
theorem State.afterTransfer_transferred (s : State) (b : Board) (g : List Gap) (down again : Bool) :
    Transferred s { s with board := b, gaps := g }
      { ({ s with board := b, gaps := g } : State).afterTransfer down |>.repeatIf again with eiDelay := false }
      (pointerStep down) (if again then s.pc - 2#16 else s.pc) := by
  rw [State.repeatIf_eq]
  exact ⟨(word_hi_lo _).trans (stepPointer_eq down _), (word_hi_lo _).trans (stepPointer_eq down _), word_hi_lo _,
    rfl, rfl, rfl, rfl, rfl, rfl⟩

theorem transfers_of_exec {i : Instr} {s : State} {down again : Bool} (hexec : exec i s = s.blockTransfer down again) :
    Transfers i s (pointerStep down) again := by
  intro m n p hm hn hp
  have hpasses : Passes s p :=
    ((((Passes.refl s).gap hm).withBoard _ |>.gap hn).withBoard _).idles hp
  obtain ⟨b, g, hpeq⟩ := hpasses.exists_eq
  have hdone := s.afterTransfer_transferred b g down again
  rw [← hpeq] at hdone
  refine ⟨_, hexec.trans (s.blockTransfer_ok m n p down again hm hn (idles_again hp)), n.write_stored _ _, ?_, hdone⟩
  intro hwritten
  rw [State.repeatIf_eq, hwritten]
  exact (n.write_stored _ _).trans_read (fun _ => rfl) rfl

/-- Settles O36: the four forms are one operation with two switches. -/
theorem blockTransferMovesOneByte : Obligations.BlockTransferMovesOneByte := by
  unfold Obligations.BlockTransferMovesOneByte
  intro s
  rw [← sub_one_bne_zero]
  exact ⟨transfers_of_exec (down := false) rfl, transfers_of_exec (down := true) rfl, transfers_of_exec (down := false) rfl,
    transfers_of_exec (down := true) rfl⟩

/-! ## Block search -/

theorem State.searchAgain_iff (s : State) (repeats : Bool) (v : Byte) :
    s.searchAgain repeats v = true ↔ repeats = true ∧ s.bc ≠ 1#16 ∧ s.regs.a ≠ v := by
  simp [State.searchAgain, sub_one_bne_zero, and_assoc]

/-- The end of a block search that found `v`, in a state after its cycles. -/
theorem State.afterSearch_searched (s : State) (b : Board) (g : List Gap) (v : Byte) (down again : Bool) :
    Searched s { s with board := b, gaps := g } v
      { ({ s with board := b, gaps := g } : State).afterSearch down v |>.repeatIf again with eiDelay := false }
      (pointerStep down) (if again then s.pc - 2#16 else s.pc) := by
  rw [State.repeatIf_eq]
  exact ⟨(word_hi_lo _).trans (stepPointer_eq down _), word_hi_lo _, rfl, rfl, rfl, rfl, rfl, rfl, fun _ => rfl, rfl⟩

theorem searches_of_exec {i : Instr} {s : State} {down repeats : Bool} (hexec : exec i s = s.blockSearch down repeats) :
    Searches i s (pointerStep down) repeats := by
  intro m p hm hp
  simp only [← State.searchAgain_iff] at hp ⊢
  have hidles : Idles (1 + (s.searchAgain repeats (m.memRead s.hl).1).toNat) (m.memRead s.hl).2 p := by
    cases h : s.searchAgain repeats (m.memRead s.hl).1 <;> simpa [h] using hp
  obtain ⟨b, g, hpeq⟩ := ((((Passes.refl s).gap hm).withBoard _).idles hidles).exists_eq
  have hdone := s.afterSearch_searched b g (m.memRead s.hl).1 down (s.searchAgain repeats (m.memRead s.hl).1)
  rw [← hpeq] at hdone
  exact ⟨_, hexec.trans (s.blockSearch_ok m p down repeats hm hidles), hdone⟩

/-- Settles O37: the four forms are one operation with two switches. -/
theorem blockSearchComparesOneByte : Obligations.BlockSearchComparesOneByte := by
  unfold Obligations.BlockSearchComparesOneByte
  exact fun s => ⟨searches_of_exec (down := false) rfl, searches_of_exec (down := true) rfl,
    searches_of_exec (down := false) rfl, searches_of_exec (down := true) rfl⟩

/-! ## What an I/O cycle leaves of memory -/

/-- What memory shows depends on its content, the map and the boot overlay. -/
theorem Board.peek_congr {b c : Board} (hmem : c.mem = b.mem) (hmap : c.memmap = b.memmap) (ho : c.overlay = b.overlay)
    (tick : Nat) (cy : Cycle) (a : Word) : c.peek tick cy a = b.peek tick cy a := by
  have hlocate : c.locate a = b.locate a := by
    unfold Board.locate Board.regions
    rw [hmap, ho]
  unfold Board.peek
  rw [hlocate, hmem]

theorem Board.deliver_overlay {b c : Board} {tick : Nat} {port : Word} {v : Byte} (h : b.deliver tick port v = .ok c) :
    c.overlay = b.overlay := by
  unfold Board.deliver at h
  repeat' split at h
  all_goals cases h
  all_goals rfl

/-- An output leaves the boot overlay as it is: only an I/O read switches it off (R586). -/
theorem Board.ioWrite_overlay {b c : Board} {tick : Nat} {port : Word} {v : Byte} (h : b.ioWrite tick port v = .ok c) :
    c.overlay = b.overlay := by
  unfold Board.ioWrite at h
  split at h
  · next d hd => cases h; exact (Board.deliver_overlay hd : d.overlay = b.overlay)
  · cases h

/-- An I/O write cycle that is taken, in a state that differs from the one with its board in what memory does not show. -/
theorem wroteTo_of_ioWrite {n t : State} {b : Board} {port : Word} {v : Byte} (h : n.board.ioWrite n.tick port v = .ok b)
    (hb : t.board = b) (ht : t.tick = n.tick) : WroteTo n t port v := by
  have hkeeps := n.board.ioWrite_keeps b _ _ _ h
  subst hb
  refine ⟨h, Board.ioWrite_log _ _ _ _ _ h, hkeeps.mem, fun a => ?_⟩
  unfold State.read
  rw [ht]
  exact Board.peek_congr hkeeps.mem hkeeps.maps.memmap (Board.ioWrite_overlay h) _ _ _

/-- Without a boot overlay an I/O read cycle leaves what memory shows. -/
theorem sameMemory_of_ioRead {m t : State} {port : Word} (hb : t.board = (m.board.ioRead m.tick port).2)
    (ht : t.tick = m.tick) (ho : m.board.overlay = none) : SameMemory m t := by
  have hkeeps := m.board.ioRead_keeps m.tick port
  have hnone : (m.board.ioRead m.tick port).2.overlay = m.board.overlay := by
    have hmap := hkeeps.maps.overlay
    rw [ho, Option.map_none, Option.map_eq_none_iff] at hmap
    rw [hmap, ho]
  intro a
  unfold State.read
  rw [ht, hb]
  exact Board.peek_congr hkeeps.mem hkeeps.maps.memmap hnone _ _ _

/-! ## Block input and output -/

/-- The end of a block input or output, in a state after its cycles. -/
theorem State.afterBlockIo_done (s : State) (b : Board) (g : List Gap) (down again : Bool) :
    BlockIoDone s { ({ s with board := b, gaps := g } : State).afterBlockIo down |>.repeatIf again with eiDelay := false }
      (pointerStep down) (if again then s.pc - 2#16 else s.pc) := by
  rw [State.repeatIf_eq]
  refine ⟨(word_hi_lo _).trans (stepPointer_eq down _), rfl, fun q hb hh hl => ?_, rfl, rfl, rfl⟩
  cases q with
  | a | c | d | e => rfl
  | b => exact absurd rfl hb
  | h => exact absurd rfl hh
  | l => exact absurd rfl hl

theorem State.afterBlockIo_repeatIf_eq (p : State) (down again : Bool) :
    { (p.afterBlockIo down).repeatIf again with eiDelay := false } = { p with
      regs := ((p.afterBlockIo down).repeatIf again).regs
      pc := ((p.afterBlockIo down).repeatIf again).pc
      eiDelay := false } := by
  rw [State.repeatIf_eq]
  rfl

theorem blockReads_of_exec {i : Instr} {s : State} {down again : Bool} (hexec : exec i s = s.blockInput down again) :
    BlockReads i s (pointerStep down) again := by
  intro m n p hm hn hp
  obtain ⟨b, g, hpeq⟩ := (((((Passes.refl s).gap hm).withBoard _ |>.gap hn).withBoard _).idles hp).exists_eq
  have hdone := s.afterBlockIo_done b g down again
  rw [← hpeq] at hdone
  refine ⟨_, _, hexec.trans (s.blockInput_ok m n p down again hm hn (idles_again hp)), rfl, n.write_stored _ _, ?_, hdone,
    p.afterBlockIo_repeatIf_eq down again⟩
  intro hwritten
  rw [State.repeatIf_eq, hwritten]
  exact (n.write_stored _ _).trans_read (fun _ => rfl) rfl

/-- Settles O55: the four forms are one operation with two switches. -/
theorem blockInputStoresOneByte : Obligations.BlockInputStoresOneByte := by
  unfold Obligations.BlockInputStoresOneByte
  intro s
  rw [← sub_one_bne_zero]
  exact ⟨blockReads_of_exec (down := false) rfl, blockReads_of_exec (down := true) rfl,
    blockReads_of_exec (down := false) rfl, blockReads_of_exec (down := true) rfl⟩

theorem blockWrites_of_exec {i : Instr} {s : State} {down again : Bool} (hexec : exec i s = s.blockOutput down again) :
    BlockWrites i s (pointerStep down) again := by
  intro m n hm hn
  obtain ⟨hok, herror⟩ := s.blockOutput_ok m n down again hm hn
  refine ⟨fun b p hb hp => ?_, fun e he => hexec.trans (herror e he)⟩
  obtain ⟨c, g, hpeq⟩ := (((((Passes.refl s).gap hm).withBoard _ |>.gap hn).withBoard b).idles hp).exists_eq
  have hdone := s.afterBlockIo_done c g down again
  rw [← hpeq] at hdone
  refine ⟨_, hexec.trans (hok b p hb (idles_again hp)), wroteTo_of_ioWrite hb rfl rfl, ?_, hdone,
    p.afterBlockIo_repeatIf_eq down again⟩
  intro hwritten
  rw [State.repeatIf_eq, hwritten]
  exact wroteTo_of_ioWrite hb rfl rfl

/-- Settles O56: the four forms are one operation with two switches. -/
theorem blockOutputWritesOneByte : Obligations.BlockOutputWritesOneByte := by
  unfold Obligations.BlockOutputWritesOneByte
  intro s
  rw [← sub_one_bne_zero]
  exact ⟨blockWrites_of_exec (down := false) rfl, blockWrites_of_exec (down := true) rfl,
    blockWrites_of_exec (down := false) rfl, blockWrites_of_exec (down := true) rfl⟩

end Sys2Proof.Machine

/-! # Input, output and the rotates of A (R66, R280 to R283, R291, R292, R370 to R376, R595) -/

namespace Sys2Proof.Machine

/-! ## Input -/

/-- A register and the flags replaced leave all but the register file. -/
theorem State.setReg8_setF_eq (m : State) (r : Reg8) (v : Byte) (f : Flags) :
    (m.setReg8 r v).setF f = { m with regs := ((m.setReg8 r v).setF f).regs } := by
  cases r <;> rfl

theorem Passes.reg8 {s m : State} (h : Passes s m) (q : Reg8) : m.reg8 q = s.reg8 q := by
  rw [h.eq]
  cases q <;> rfl

/-- IN A,(n) after its gap (R370). -/
theorem exec_inAN {s m : State} (hm : s.gap = .ok m) (n : Byte) :
    exec (.inAN n) s = .next { m with
      regs := { m.regs with a := (m.board.ioRead m.tick (s.regs.a ++ n)).1 }
      board := (m.board.ioRead m.tick (s.regs.a ++ n)).2
      eiDelay := false } :=
  s.portReadThen_ok m (s.portA n) (fun v t => finish (t.setReg8 .a v)) hm

/-- IN r,(C) after its gap (R371). -/
theorem exec_inRC {s m : State} (hm : s.gap = .ok m) (r : Reg8) :
    exec (.inRC r) s = finish
      (({ m with board := (m.board.ioRead m.tick (s.regs.b ++ s.regs.c)).2 }.setReg8 r
          (m.board.ioRead m.tick (s.regs.b ++ s.regs.c)).1).setF
        (parityFlags s.unspec s.regs.f (m.board.ioRead m.tick (s.regs.b ++ s.regs.c)).1)) :=
  s.portReadThen_ok m s.portBC (fun v t => finish ((t.setReg8 r v).setF (parityFlags s.unspec s.regs.f v))) hm

/-- Settles O53: the register takes the byte of the cycle, and an I/O read cycle keeps memory. -/
theorem inputLoadsThePortByte : Obligations.InputLoadsThePortByte := by
  unfold Obligations.InputLoadsThePortByte
  intro s m hm
  have hreg := ((Passes.refl s).gap hm).reg8
  refine ⟨fun n => ?_, fun r => ?_⟩
  · exact ⟨_, exec_inAN hm n, rfl, rfl, (m.board.ioRead_keeps _ _).mem, rfl, sameMemory_of_ioRead rfl rfl⟩
  · have hkeeps := m.board.ioRead_keeps m.tick (s.regs.b ++ s.regs.c)
    generalize hread : m.board.ioRead m.tick (s.regs.b ++ s.regs.c) = x
    rw [hread] at hkeeps
    have hexec := exec_inRC hm r
    rw [hread, State.setReg8_setF_eq] at hexec
    refine ⟨_, x.1, hexec, rfl, (State.reg8_setF _ _ _).trans (State.reg8_setReg8_same _ _ _), fun q hq => ?_,
      rfl, rfl, rfl, rfl, parityEven_eq x.1, rfl, rfl, hkeeps.mem, rfl, sameMemory_of_ioRead (by rw [hread]) rfl⟩
    exact ((State.reg8_setF _ _ _).trans (State.reg8_setReg8_other _ _ _ _ hq)).trans (hreg q)

/-! ## Output -/

/-- Every device but a PIO's control words takes every byte (R484, R487). -/
theorem Board.ioWrite_of_takesAnyByte {b : Board} {port : Word} (h : b.takesAnyByte port) (tick : Nat) (v : Byte) :
    ∃ b', b.ioWrite tick port v = .ok b' := by
  have hdeliver : ∃ c, b.deliver tick port v = .ok c := by
    unfold Board.deliver
    split
    · exact ⟨_, rfl⟩
    · exact ⟨_, rfl⟩
    · next n control portB htarget =>
      split
      · exact ⟨_, rfl⟩
      · cases control with
        | true => exact absurd htarget (h n portB)
        | false => exact ⟨_, rfl⟩
    · split
      · exact ⟨_, rfl⟩
      · split <;> exact ⟨_, rfl⟩
    · split <;> exact ⟨_, rfl⟩
    · split <;> exact ⟨_, rfl⟩
  obtain ⟨c, hc⟩ := hdeliver
  exact ⟨_, by rw [Board.ioWrite, hc]⟩

/-- An output that ends with its cycle: the board is that of the cycle, and a refused word refuses the instruction. -/
theorem exec_output {i : Instr} {s m : State} {port : Word} {v : Byte} (hexec : exec i s = s.portWriteThen port v finish)
    (hm : s.gap = .ok m) :
    (∀ b, m.board.ioWrite m.tick port v = .ok b → ∃ t, exec i s = .next t ∧ WroteTo m t port v ∧
      t = { m with board := b, eiDelay := false }) ∧
    ∀ e, m.board.ioWrite m.tick port v = .error e → exec i s = .refused e := by
  obtain ⟨hok, herror⟩ := s.portWriteThen_ok m port v finish hm
  exact ⟨fun b hb => ⟨_, hexec.trans (hok b hb), wroteTo_of_ioWrite hb rfl rfl, rfl⟩, fun e he => hexec.trans (herror e he)⟩

/-- Settles O54: both forms are one write cycle and nothing else. -/
theorem outputWritesThePort : Obligations.OutputWritesThePort := by
  unfold Obligations.OutputWritesThePort
  refine ⟨fun b tick port v h => Board.ioWrite_of_takesAnyByte h tick v, fun s m hm => ?_⟩
  exact ⟨fun n => (exec_output (i := .outNA n) rfl hm).1, fun r => (exec_output (i := .outCR r) rfl hm).1,
    fun n => (exec_output (i := .outNA n) rfl hm).2, fun r => (exec_output (i := .outCR r) rfl hm).2⟩

/-! ## Rotates of A -/

theorem msb_eq_getLsbD_seven : ∀ v : Byte, v.msb = v.getLsbD 7 := by decide

theorem rotate_rlc : ∀ v : Byte, (rotate .rlc false v).1 = v.rotateLeft 1 := by decide

theorem rotate_rrc : ∀ v : Byte, (rotate .rrc false v).1 = v.rotateRight 1 := by decide

theorem rotate_rl : ∀ (c : Bool) (v : Byte), (rotate .rl c v).1 = BitVec.ofNat 8 (2 * v.toNat + c.toNat) := by decide

theorem rotate_rr : ∀ (c : Bool) (v : Byte), (rotate .rr c v).1 = BitVec.ofNat 8 (v.toNat / 2 + 128 * c.toNat) := by decide

/-- A rotate of A ends with its result in A and its carry in C, and keeps S, Z and P/V (R280). -/
theorem rotatedA_of_rotAcc (s : State) (op : RotOp) {res : Byte} {c : Bool} (hres : (rotate op s.regs.f.c s.regs.a).1 = res)
    (hc : (rotate op s.regs.f.c s.regs.a).2 = c) :
    ∃ t, finish (s.setAF (rotAcc op s.unspec s.regs.f s.regs.a)) = .next t ∧ RotatedA s t res c := by
  refine ⟨_, rfl, ⟨hres, fun q hq => ?_, rfl, fun _ => rfl⟩, hc, rfl, rfl, rfl, rfl, rfl⟩
  cases q with
  | a => exact absurd rfl hq
  | b | c | d | e | h | l => rfl

/-! ## Rotates of digits -/

/-- A byte of a high digit and a low digit. -/
theorem toNat_or_digit {u v : Byte} (hu : u.toNat % 16 = 0) (hv : v.toNat < 16) : (u ||| v).toNat = u.toNat + v.toNat := by
  have hdigits := Nat.two_pow_add_eq_or_of_lt (i := 4) hv (u.toNat / 16)
  have hhigh : 2 ^ 4 * (u.toNat / 16) = u.toNat := by omega
  rw [BitVec.toNat_or, ← hhigh, ← hdigits]

theorem toNat_highDigit : ∀ v : Byte, (v &&& 0xF0#8).toNat = v.toNat / 16 * 16 := by decide

theorem toNat_lowDigit : ∀ v : Byte, (v &&& 0x0F#8).toNat = v.toNat % 16 := by decide

theorem toNat_digitUp : ∀ v : Byte, (v <<< 4).toNat = v.toNat % 16 * 16 := by decide

theorem toNat_digitDown : ∀ v : Byte, (v >>> 4).toNat = v.toNat / 16 := by decide

theorem toNat_highDigit_or (a : Byte) {v : Byte} (hv : v.toNat < 16) :
    ((a &&& 0xF0#8) ||| v).toNat = a.toNat / 16 * 16 + v.toNat := by
  rw [toNat_or_digit (by rw [toNat_highDigit]; omega) hv, toNat_highDigit]

theorem toNat_digitUp_or (a : Byte) {v : Byte} (hv : v.toNat < 16) :
    ((a <<< 4) ||| v).toNat = a.toNat % 16 * 16 + v.toNat := by
  rw [toNat_or_digit (by rw [toNat_digitUp]; omega) hv, toNat_digitUp]

theorem lowDigit_lt (v : Byte) : (v &&& 0x0F#8).toNat < 16 := by
  rw [toNat_lowDigit]; omega

theorem digitDown_lt (v : Byte) : (v >>> 4).toNat < 16 := by
  have := v.isLt
  rw [toNat_digitDown]; omega

theorem rldPair_fst (a v : Byte) : (rldPair a v).1.toNat = a.toNat / 16 * 16 + v.toNat / 16 :=
  (toNat_highDigit_or a (digitDown_lt v)).trans (by rw [toNat_digitDown])

theorem rldPair_snd (a v : Byte) : (rldPair a v).2 = BitVec.ofNat 8 (v.toNat % 16 * 16 + a.toNat % 16) := by
  rw [← toNat_lowDigit a, ← toNat_digitUp_or v (lowDigit_lt a), BitVec.ofNat_toNat, BitVec.setWidth_eq]
  rfl

theorem rrdPair_fst (a v : Byte) : (rrdPair a v).1.toNat = a.toNat / 16 * 16 + v.toNat % 16 :=
  (toNat_highDigit_or a (lowDigit_lt v)).trans (by rw [toNat_lowDigit])

theorem rrdPair_snd (a v : Byte) : (rrdPair a v).2 = BitVec.ofNat 8 (a.toNat % 16 * 16 + v.toNat / 16) := by
  rw [← toNat_digitDown v, ← toNat_digitUp_or a (digitDown_lt v), BitVec.ofNat_toNat, BitVec.setWidth_eq]
  rfl

/-- A rotate of digits stores the second of its pair and leaves the first in A with its flags (R291, R292). -/
theorem digitsRotated_of_exec {i : Instr} {s : State} {pair : Byte → Byte → Byte × Byte}
    (hexec : exec i s = s.rotateDigits pair) :
    ReadsIdlesThenWrites (exec i) s s.hl s.hl (fun v => (pair s.regs.a v).2)
      (fun n v t => DigitsRotated n t (pair s.regs.a v).1.toNat) := by
  rintro m p n hm ⟨q, hq, rfl⟩ hn
  have hpasses : Passes s n := (((Passes.refl s).gap hm).withBoard _ |>.gap hq).gap hn
  have hregs := hpasses.regs
  have hstored := n.write_stored s.hl (pair s.regs.a (m.memRead s.hl).1).2
  obtain ⟨mem, l, hwrite⟩ := n.write_eq s.hl (pair s.regs.a (m.memRead s.hl).1).2
  refine ⟨_, hexec.trans (s.rotateDigits_ok m _ n pair hm hq hn), hstored.trans_read (fun _ => rfl) rfl, rfl, fun r hr => ?_, rfl,
    rfl, rfl, rfl, parityEven_eq _, congrArg (fun x => x.f.c) hregs.symm, ?_⟩
  · cases r with
    | a => exact absurd rfl hr
    | b | c | d | e | h | l => rfl
  · rw [hwrite]; rfl

/-- Settles O47: the four rotates of A by their results, and the two rotates of digits by their pairs. -/
theorem rotatesOfTheAccumulator : Obligations.RotatesOfTheAccumulator := by
  unfold Obligations.RotatesOfTheAccumulator
  intro s
  refine ⟨rotatedA_of_rotAcc s .rlc (rotate_rlc _) (msb_eq_getLsbD_seven _), rotatedA_of_rotAcc s .rrc (rotate_rrc _) rfl,
    rotatedA_of_rotAcc s .rl (rotate_rl _ _) (msb_eq_getLsbD_seven _), rotatedA_of_rotAcc s .rr (rotate_rr _ _) rfl, ?_, ?_⟩
  · simpa only [rldPair_fst, rldPair_snd] using digitsRotated_of_exec (i := .rld) (s := s) rfl
  · simpa only [rrdPair_fst, rrdPair_snd] using digitsRotated_of_exec (i := .rrd) (s := s) rfl

end Sys2Proof.Machine

/-! # Encoding (R90 to R118) -/

namespace Sys2Proof
open Machine

/-- Settles O1: the encoding alone is decoded to its instruction, and the decoder's answer stays when bytes follow. -/
theorem decodeOfEncodeIsTheInstruction : Obligations.DecodeOfEncodeIsTheInstruction := by
  unfold Obligations.DecodeOfEncodeIsTheInstruction
  intro i rest hwf
  exact (decode_stable (encode i) rest).1 i [] (decode_encode i hwf)

/-- Settles O2: each opcode map's plan belongs to the bytes that lead to it, so what is decoded is encoded so. -/
theorem decodedBytesAreTheEncoding : Obligations.DecodedBytesAreTheEncoding := by
  unfold Obligations.DecodedBytesAreTheEncoding
  intro bytes rest i hdec
  exact decode_ok hdec

/-! ## The opcode maps row by row -/

/-- How many of the sixteen opcodes with the high digit `row` `definedAfter pre skip` counts. -/
def definedInRow (pre : List Byte) (skip : List Nat) (row : Nat) : Nat :=
  (List.range 16).countP fun col =>
    !skip.contains (16 * row + col) && (decode (pre ++ [BitVec.ofNat 8 (16 * row + col), 0#8, 0#8])).toOption.isSome

/-- A count over `n` rows of `w` numbers is the sum of the counts of the rows. -/
theorem countP_range_rows (p : Nat → Bool) (w n : Nat) :
    (List.range (w * n)).countP p = ((List.range n).map fun row => (List.range w).countP fun col => p (w * row + col)).sum := by
  induction n with
  | zero => rfl
  | succ n ih =>
    rw [Nat.mul_succ, List.range_add, List.countP_append, ih, List.countP_map, List.range_succ, List.map_append, List.sum_append]
    rfl

/-- The opcodes of a map are counted row by row, so that each evaluation of the decoder is over sixteen opcodes. -/
theorem definedAfter_of_rows {pre : List Byte} {skip rows : List Nat}
    (h : (List.range 16).map (definedInRow pre skip) = rows) : definedAfter pre skip = rows.sum :=
  (countP_range_rows _ 16 16).trans (congrArg List.sum h)

/-- The one-byte opcodes leave out CB in row C, DD in row D, ED in row E and FD in row F (R107 to R110). -/
theorem definedInRow_main :
    (List.range 16).map (definedInRow [] [0xCB, 0xDD, 0xED, 0xFD]) =
      [16, 16, 16, 16, 16, 16, 16, 16, 16, 16, 16, 16, 15, 15, 15, 15] := by decide

/-- The CB opcodes leave out 30 to 37 (R111). -/
theorem definedInRow_cb : (List.range 16).map (definedInRow [0xCB#8] []) =
    [16, 16, 16, 8, 16, 16, 16, 16, 16, 16, 16, 16, 16, 16, 16, 16] := by decide

/-- The ED opcodes stand in rows 4 to 7, A and B (R112). -/
theorem definedInRow_ed : (List.range 16).map (definedInRow [0xED#8] []) =
    [0, 0, 0, 0, 14, 12, 10, 6, 0, 0, 8, 8, 0, 0, 0, 0] := by decide

/-- DD and FD have the same second bytes, CB apart (R113). -/
theorem definedInRow_indexed : ∀ first ∈ [0xDD#8, 0xFD#8],
    (List.range 16).map (definedInRow [first] [0xCB]) = [1, 1, 6, 4, 2, 2, 2, 8, 2, 2, 2, 2, 0, 0, 4, 1] := by decide

/-- DD CB and FD CB have the same fourth bytes: those of (HL) in the CB map, two in each row but row 3 (R114). -/
theorem definedInRow_indexedCb : ∀ first ∈ [0xDD#8, 0xFD#8],
    (List.range 16).map (definedInRow [first, 0xCB#8, 0#8] []) = [2, 2, 2, 1, 2, 2, 2, 2, 2, 2, 2, 2, 2, 2, 2, 2] := by decide

/-- Settles O4: the seven counts are the sums of the rows of the opcode maps. -/
theorem opcodeCountsOfTheMaps : Obligations.OpcodeCountsOfTheMaps := by
  unfold Obligations.OpcodeCountsOfTheMaps
  exact ⟨definedAfter_of_rows definedInRow_main, definedAfter_of_rows definedInRow_cb, definedAfter_of_rows definedInRow_ed,
    definedAfter_of_rows (definedInRow_indexed _ (by simp)), definedAfter_of_rows (definedInRow_indexed _ (by simp)),
    definedAfter_of_rows (definedInRow_indexedCb _ (by simp)), definedAfter_of_rows (definedInRow_indexedCb _ (by simp))⟩

end Sys2Proof

/-! # Loads, the stack and the exchanges (R130 to R190) -/

namespace Sys2Proof.Machine

/-! ## Registers and pairs after a load -/

theorem sameMemory_of_board {s t : State} (hb : t.board = s.board) (ht : t.tick = s.tick) : SameMemory s t := by
  intro a
  rw [State.read, State.read, hb, ht]

/-- A register is loaded and the instruction ends (R130, R131). -/
theorem finish_setReg8 (s : State) (r : Reg8) (v : Byte) : ∃ t, finish (s.setReg8 r v) = .next t ∧ LoadsReg s t r v := by
  refine ⟨_, rfl, ⟨s.reg8_setReg8_same r v, fun q hq => s.reg8_setReg8_other r q v hq, ?_, ?_⟩, s.setReg8_f r v⟩
  · exact congrArg (fun x : State => { x with eiDelay := false }) (s.setReg8_eq r v)
  · exact sameMemory_of_board (s.setReg8_board r v) (s.setReg8_tick r v)

/-- A and F are replaced: no other register changes. -/
theorem State.setAF_writesReg (s : State) (p : Byte × Flags) : WritesReg s { s.setAF p with eiDelay := false } .a p.1 := by
  refine ⟨rfl, fun q hq => ?_, rfl, fun _ => rfl⟩
  cases q with
  | a => exact absurd rfl hq
  | b | c | d | e | h | l => rfl

/-- LD A,I and LD A,R: `v` is the special register (R147, R148). -/
theorem finish_loadSpecial (s : State) (v : Byte) :
    ∃ t, finish (s.setAF (v, loadSpecialFlags s.unspec s.regs.f v s.iff2)) = .next t ∧ WritesReg s t .a v ∧
      t.regs.f.s = v.msb ∧ t.regs.f.z = (v == 0#8) ∧ t.regs.f.h = false ∧ t.regs.f.n = false ∧ t.regs.f.pv = s.iff2 ∧
      t.regs.f.c = s.regs.f.c :=
  ⟨_, rfl, s.setAF_writesReg _, rfl, rfl, rfl, rfl, rfl, rfl⟩

/-- A register outside the pair keeps its value. -/
theorem State.reg8_setPairSp_other (s : State) (p : PairSp) (w : Word) (q : Reg8) (h : pairHas p q = false) :
    (s.setPairSp p w).reg8 q = s.reg8 q := by
  cases p with
  | bc => cases q with
    | b | c => cases h
    | a | d | e | h | l => rfl
  | de => cases q with
    | d | e => cases h
    | a | b | c | h | l => rfl
  | hl => cases q with
    | h | l => cases h
    | a | b | c | d | e => rfl
  | sp => cases q <;> rfl

theorem State.setPairSp_sp (s : State) (p : PairSp) (w : Word) (h : p ≠ .sp) : (s.setPairSp p w).sp = s.sp := by
  cases p with
  | bc | de | hl => rfl
  | sp => exact absurd rfl h

/-- A pair dd is loaded and the instruction ends (R160, R164, R172). -/
theorem finish_setPairSp (s : State) (p : PairSp) (w : Word) :
    ∃ t, finish (s.setPairSp p w) = .next t ∧ LoadsPair s t p w := by
  refine ⟨_, rfl, ?_⟩
  exact {
    value := s.setPairSp_value p w
    others := fun q hq => s.reg8_setPairSp_other p w q hq
    sp := s.setPairSp_sp p w
    flags := s.setPairSp_f p w
    rest := congrArg (fun x : State => { x with eiDelay := false }) (s.setPairSp_eq p w)
    memory := sameMemory_of_board (s.setPairSp_board p w) (s.setPairSp_tick p w) }

theorem State.pairAf_setPairAf_same (s : State) (p : PairAf) (w : Word) : (s.setPairAf p w).pairAf p = w := by
  cases p with
  | bc | de | hl => exact word_hi_lo w
  | af =>
    calc word (hi w) (Flags.ofByte (lo w)).toByte
        = word (hi w) (lo w) := by rw [Flags.toByte_ofByte]
      _ = w := word_hi_lo w

/-- No two pairs qq share a register. -/
theorem State.pairAf_setPairAf_other (s : State) (p q : PairAf) (w : Word) (h : q ≠ p) :
    (s.setPairAf p w).pairAf q = s.pairAf q := by
  cases p with
  | bc => cases q with
    | bc => exact absurd rfl h
    | de | hl | af => rfl
  | de => cases q with
    | de => exact absurd rfl h
    | bc | hl | af => rfl
  | hl => cases q with
    | hl => exact absurd rfl h
    | bc | de | af => rfl
  | af => cases q with
    | af => exact absurd rfl h
    | bc | de | hl => rfl

theorem State.setPairAf_eq (s : State) (p : PairAf) (w : Word) :
    s.setPairAf p w = { s with regs := (s.setPairAf p w).regs } := by cases p <;> rfl

theorem Passes.pairAf {s m : State} (h : Passes s m) (q : PairAf) : m.pairAf q = s.pairAf q := by
  rw [h.eq]
  cases q <;> rfl

/-! ## Instructions made of read cycles -/

/-- An instruction that is one read cycle and then ends, with `hk` for what it does with the byte. -/
theorem readsOnce_of_exec {i : Instr} {s : State} {a : Word} {k : Byte → State → Result} {post : State → Byte → State → Prop}
    (hexec : exec i s = s.readThen a k) (hk : ∀ v x, ∃ t, k v x = .next t ∧ SameMemory x t ∧ post x v t) :
    ReadsOnce (exec i) s a post := by
  intro m hm
  obtain ⟨t, ht, hsame, hpost⟩ := hk (m.memRead a).1 (m.memRead a).2
  exact ⟨t, hexec.trans ((s.readThen_ok m a k hm).trans ht), fun c => (hsame c).trans (m.memRead_read a c), hpost⟩

/-- An instruction that reads a word and then ends, with `hk` for what it does with the word in a state after its cycles. -/
theorem readsTwice_of_exec {i : Instr} {s : State} {a : Word} {k : Word → State → Result} {post : State → Word → State → Prop}
    (hexec : exec i s = s.readWordThen a k)
    (hk : ∀ w x, Passes s x → ∃ t, k w x = .next t ∧ SameMemory x t ∧ post x w t) :
    ReadsTwice (exec i) s a (a + 1#16) post := by
  intro m n hm hn
  have hpasses : Passes s (n.memRead (a + 1#16)).2 :=
    (((Passes.refl s).gap hm).withBoard _ |>.gap hn).withBoard _
  obtain ⟨t, ht, hsame, hpost⟩ := hk (word (n.memRead (a + 1#16)).1 (m.memRead a).1) _ hpasses
  exact ⟨t, hexec.trans ((s.readWordThen_ok m n a k hm hn).trans ht), fun c => (hsame c).trans (n.memRead_read _ c), hpost⟩

theorem ReadsTwice.mono {o : State → Result} {s : State} {a b : Word} {post post' : State → Word → State → Prop}
    (h : ReadsTwice o s a b post) (hpost : ∀ x w t, post x w t → post' x w t) : ReadsTwice o s a b post' := by
  intro m n hm hn
  obtain ⟨t, ht, hsame, hp⟩ := h m n hm hn
  exact ⟨t, ht, hsame, hpost _ _ _ hp⟩

/-- A load of a register from memory (R132, R133, R139, R141 to R143). -/
theorem readsOnce_loadsReg {i : Instr} {s : State} {a : Word} {r : Reg8}
    (hexec : exec i s = s.readThen a fun v t => finish (t.setReg8 r v)) :
    ReadsOnce (exec i) s a (fun x v t => LoadsReg x t r v) := by
  refine readsOnce_of_exec hexec fun v x => ?_
  obtain ⟨t, ht, hloads⟩ := finish_setReg8 x r v
  exact ⟨t, ht, hloads.writes.rest.2, hloads⟩

/-- A load of a pair from memory (R163, R164). -/
theorem readsTwice_loadsPair {i : Instr} {s : State} {a : Word} {p : PairSp}
    (hexec : exec i s = s.readWordThen a fun w t => finish (t.setPairSp p w)) :
    ReadsTwice (exec i) s a (a + 1#16) (fun x w t => LoadsPair x t p w) := by
  refine readsTwice_of_exec hexec fun w x _ => ?_
  obtain ⟨t, ht, hloads⟩ := finish_setPairSp x p w
  exact ⟨t, ht, hloads.memory, hloads⟩

/-! ## Instructions made of write cycles -/

/-- A write and the end of the instruction change memory and the log alone. -/
theorem State.write_onlyMem (m : State) (a : Word) (v : Byte) : OnlyMem m { m.write a v with eiDelay := false } := by
  obtain ⟨mem, l, h⟩ := m.write_eq a v
  rw [h]
  rfl

/-- An instruction that is one write cycle (R134 to R138, R140, R144 to R146). -/
theorem writesOnce_of_exec {i : Instr} {s : State} {a : Word} {v : Byte} (hexec : exec i s = s.writeThen a v finish) :
    WritesOnce (exec i) s a v OnlyMem := by
  intro m hm
  exact ⟨_, hexec.trans (s.writeThen_ok m a v finish hm), (m.write_stored a v).trans_read (fun _ => rfl) rfl,
    m.write_onlyMem a v⟩

/-- Two write cycles, after which the CPU's registers change by `k` and the instruction ends. -/
def State.writesThenEnds (s : State) (a₁ : Word) (v₁ : Byte) (a₂ : Word) (v₂ : Byte) (k : State → State) : Result :=
  s.writeThen a₁ v₁ fun t => t.writeThen a₂ v₂ fun u => finish (k u)

/-- What `writesThenEnds` stores; `hpost` says what it leaves where the second write gives memory and the log any content. -/
theorem writesTwice_of_writesThenEnds {o : State → Result} {s : State} {a₁ a₂ : Word} {v₁ v₂ : Byte} {k : State → State}
    {post : State → State → Prop} (ho : o s = s.writesThenEnds a₁ v₁ a₂ v₂ k)
    (hboard : ∀ u, (k u).board = u.board) (htick : ∀ u, (k u).tick = u.tick)
    (hpost : ∀ n mem l, post n { k { n with board := { n.board with mem := mem, log := l } } with eiDelay := false }) :
    WritesTwice o s a₁ v₁ a₂ v₂ post := by
  intro m n hm hn
  have hread : ∀ c, State.read { k (n.write a₂ v₂) with eiDelay := false } c = (n.write a₂ v₂).read c :=
    sameMemory_of_board (hboard _) (htick _)
  have hrun : s.writesThenEnds a₁ v₁ a₂ v₂ k = finish (k (n.write a₂ v₂)) :=
    (s.writeThen_ok m a₁ v₁ _ hm).trans (State.writeThen_ok _ n a₂ v₂ _ hn)
  refine ⟨_, ho.trans hrun, m.write_stored a₁ v₁,
    (n.write_stored a₂ v₂).trans_read hread (congrArg Board.log (hboard _)), ?_, ?_⟩
  · obtain ⟨mem, l, hwrite⟩ := n.write_eq a₂ v₂
    rw [hwrite]
    exact hpost n mem l
  · rintro rfl
    exact (m.write_storedTwo a₁ v₁ a₂ v₂).trans_read hread

/-- A store of a word, its low byte first (R167 to R170). -/
theorem writesTwice_of_exec {i : Instr} {s : State} {a w : Word} (hexec : exec i s = s.writeWordThen a w finish) :
    WritesTwice (exec i) s a (lo w) (a + 1#16) (hi w) OnlyMem :=
  writesTwice_of_writesThenEnds (k := id) hexec (fun _ => rfl) (fun _ => rfl) fun _ _ _ => rfl

/-! ## 8-bit loads -/

/-- Settles O26: the two forms are one update of a register. -/
theorem loadRegisterFromRegisterOrByte : Obligations.LoadRegisterFromRegisterOrByte := by
  unfold Obligations.LoadRegisterFromRegisterOrByte
  exact fun s => ⟨fun dst src => finish_setReg8 s dst (s.reg8 src), fun r n => finish_setReg8 s r n⟩

theorem registerCode_eq (r : Reg8) : registerCode r = reg8Code r := by cases r <;> rfl

theorem pairCode_eq (p : PairSp) : pairCode p = pairSpCode p := by cases p <;> rfl

/-- Settles O27: each form is one read cycle at its address and then the load of a register. -/
theorem loadRegisterFromMemory : Obligations.LoadRegisterFromMemory := by
  unfold Obligations.LoadRegisterFromMemory
  refine ⟨fun r d => ?_, ⟨rfl, rfl, fun _ => rfl⟩, fun s => ?_⟩
  · rw [registerCode_eq]
    exact ⟨rfl, rfl, rfl⟩
  · exact ⟨fun _ => readsOnce_loadsReg rfl, fun _ _ => readsOnce_loadsReg rfl, fun _ _ => readsOnce_loadsReg rfl,
      readsOnce_loadsReg rfl, readsOnce_loadsReg rfl, fun _ => readsOnce_loadsReg rfl⟩

/-- Settles O28: each form is one write cycle at its address. -/
theorem storeByteToMemory : Obligations.StoreByteToMemory := by
  unfold Obligations.StoreByteToMemory
  refine ⟨fun r d n => ?_, ⟨rfl, rfl, decode_encode .halt rfl, fun _ => rfl⟩, fun s => ?_⟩
  · rw [registerCode_eq]
    exact ⟨rfl, rfl, rfl, rfl, rfl, rfl⟩
  · exact ⟨fun _ => writesOnce_of_exec rfl, fun _ _ => writesOnce_of_exec rfl, fun _ _ => writesOnce_of_exec rfl,
      fun _ => writesOnce_of_exec rfl, fun _ _ => writesOnce_of_exec rfl, fun _ _ => writesOnce_of_exec rfl,
      writesOnce_of_exec rfl, writesOnce_of_exec rfl, fun _ => writesOnce_of_exec rfl⟩

/-- Settles O29: the loads of A have the flags of `loadSpecialFlags`; the loads of I and R change one register. -/
theorem loadsOfTheSpecialRegisters : Obligations.LoadsOfTheSpecialRegisters := by
  unfold Obligations.LoadsOfTheSpecialRegisters
  intro s
  exact ⟨finish_loadSpecial s s.i, finish_loadSpecial s s.r, ⟨_, rfl, rfl, fun _ => rfl⟩, ⟨_, rfl, rfl, fun _ => rfl⟩⟩

/-! ## 16-bit loads -/

/-- Settles O30: the loads of a pair, SP among them, are one update, and those of IX and IY another. -/
theorem loadWordFromImmediateOrRegister : Obligations.LoadWordFromImmediateOrRegister := by
  unfold Obligations.LoadWordFromImmediateOrRegister
  refine ⟨fun dd nn => ?_, ⟨rfl, rfl, rfl⟩, fun s => ?_⟩
  · rw [pairCode_eq]
    exact ⟨rfl, rfl, rfl⟩
  · exact ⟨finish_setPairSp s, fun _ => ⟨_, rfl, rfl, fun _ => rfl⟩, fun _ => ⟨_, rfl, rfl, fun _ => rfl⟩,
      finish_setPairSp s .sp s.hl, finish_setPairSp s .sp s.ix, finish_setPairSp s .sp s.iy⟩

/-- Settles O31: each form reads a word and then loads a pair, IX or IY. -/
theorem loadWordFromMemory : Obligations.LoadWordFromMemory := by
  unfold Obligations.LoadWordFromMemory
  refine ⟨fun dd nn => ?_, fun s nn => ⟨readsTwice_loadsPair rfl, fun _ => readsTwice_loadsPair rfl, ?_, ?_⟩⟩
  · rw [pairCode_eq]
    exact ⟨rfl, rfl, rfl, rfl⟩
  · exact readsTwice_of_exec (k := fun w t => finish { t with ix := w }) rfl fun _ _ _ => ⟨_, rfl, fun _ => rfl, rfl⟩
  · exact readsTwice_of_exec (k := fun w t => finish { t with iy := w }) rfl fun _ _ _ => ⟨_, rfl, fun _ => rfl, rfl⟩

/-- Settles O32: each form stores a word; HL's halves are L and H. -/
theorem storeWordToMemory : Obligations.StoreWordToMemory := by
  unfold Obligations.StoreWordToMemory
  refine ⟨fun dd nn => ?_, fun s nn => ⟨?_, fun _ => writesTwice_of_exec rfl, writesTwice_of_exec rfl, writesTwice_of_exec rfl⟩⟩
  · rw [pairCode_eq]
    exact ⟨rfl, rfl, rfl, rfl⟩
  · have hstore : WritesTwice (exec (.ldMemHl nn)) s nn (lo s.hl) (nn + 1#16) (hi s.hl) OnlyMem := writesTwice_of_exec rfl
    rwa [State.hl, lo_word, hi_word] at hstore

/-! ## The stack -/

/-- PUSH in its two write cycles (R178 to R180). -/
theorem pushes_of_exec {i : Instr} {s : State} {w : Word} (hexec : exec i s = s.pushThen w finish) :
    Pushes (exec i) s w :=
  writesTwice_of_writesThenEnds (k := fun u => { u with sp := s.sp - 2#16 }) hexec (fun _ => rfl) (fun _ => rfl)
    fun _ _ _ => rfl

/-- POP qq in its two read cycles: one pair is loaded, and F by POP AF alone (R181). -/
theorem readsTwice_popQq (s : State) (qq : PairAf) :
    ReadsTwice (exec (.popQq qq)) s s.sp (s.sp + 1#16) (fun x w t =>
      t.pairAf qq = w ∧ (∀ q, q ≠ qq → t.pairAf q = s.pairAf q) ∧ (qq ≠ .af → t.regs.f = s.regs.f) ∧
      t = { x with regs := t.regs, sp := s.sp + 2#16, eiDelay := false }) := by
  refine readsTwice_of_exec (k := fun w t => finish ({ t with sp := s.sp + 2#16 }.setPairAf qq w)) rfl fun w x hx => ?_
  generalize hy : ({ x with sp := s.sp + 2#16 } : State) = y
  have hpair : ∀ q, y.pairAf q = s.pairAf q := fun q => hy ▸ hx.pairAf q
  have hflags : y.regs.f = s.regs.f := hy ▸ congrArg RegFile.f hx.regs
  have hregs : y.setPairAf qq w = { y with regs := (y.setPairAf qq w).regs } := y.setPairAf_eq qq w
  refine ⟨{ y.setPairAf qq w with eiDelay := false }, rfl, ?_, y.pairAf_setPairAf_same qq w,
    fun q hq => (y.pairAf_setPairAf_other qq q w hq).trans (hpair q),
    fun hqq => (y.setPairAf_f qq w hqq).trans hflags, ?_⟩
  · exact sameMemory_of_board ((y.setPairAf_board qq w).trans (hy ▸ rfl)) ((y.setPairAf_tick qq w).trans (hy ▸ rfl))
  · rw [hregs, ← hy]

/-- POP IX in its two read cycles (R182). -/
theorem readsTwice_popIx (s : State) :
    ReadsTwice (exec .popIx) s s.sp (s.sp + 1#16) (fun x w t =>
      t = { x with ix := w, sp := s.sp + 2#16, eiDelay := false }) :=
  readsTwice_of_exec (k := fun w t => finish { t with sp := s.sp + 2#16, ix := w }) rfl fun _ _ _ =>
    ⟨_, rfl, fun _ => rfl, rfl⟩

/-- POP IY in its two read cycles (R183). -/
theorem readsTwice_popIy (s : State) :
    ReadsTwice (exec .popIy) s s.sp (s.sp + 1#16) (fun x w t =>
      t = { x with iy := w, sp := s.sp + 2#16, eiDelay := false }) :=
  readsTwice_of_exec (k := fun w t => finish { t with sp := s.sp + 2#16, iy := w }) rfl fun _ _ _ =>
    ⟨_, rfl, fun _ => rfl, rfl⟩

/-- Settles O33: the pushes are one operation, and the pops differ in the register that takes the word. -/
theorem pushAndPopMoveTheWord : Obligations.PushAndPopMoveTheWord := by
  unfold Obligations.PushAndPopMoveTheWord
  exact fun s => ⟨fun _ => pushes_of_exec rfl, pushes_of_exec rfl, pushes_of_exec rfl, readsTwice_popQq s,
    readsTwice_popIx s, readsTwice_popIy s⟩

/-! ## A pop after a push -/

/-- An instruction that pushes `w` is a push of `w` (R178 to R180). -/
theorem pushes_of_pushed {i : Instr} {s : State} {w : Word} (h : s.pushed i = some w) : Pushes (exec i) s w := by
  unfold State.pushed at h
  split at h
  · cases h; exact pushes_of_exec rfl
  · cases h; exact pushes_of_exec rfl
  · cases h; exact pushes_of_exec rfl
  · cases h

/-- Every pop leaves the word it reads in its register, and SP two higher (R181 to R183). -/
theorem readsTwice_popped {j : Instr} (hj : (∃ qq, j = .popQq qq) ∨ j = .popIx ∨ j = .popIy) (s : State) :
    ReadsTwice (exec j) s s.sp (s.sp + 1#16) (fun _ w t => t.popped j = some w ∧ t.sp = s.sp + 2#16) := by
  rcases hj with ⟨qq, rfl⟩ | rfl | rfl
  · exact (readsTwice_popQq s qq).mono fun x w t ⟨hw, _, _, ht⟩ => ⟨congrArg some hw, ht ▸ rfl⟩
  · exact (readsTwice_popIx s).mono fun x w t ht => by rw [ht]; exact ⟨rfl, rfl⟩
  · exact (readsTwice_popIy s).mono fun x w t ht => by rw [ht]; exact ⟨rfl, rfl⟩

/-- After a push onto two cells of RAM with nothing between its cycles, the two stack addresses read the two halves of the word. -/
theorem exec_push_quiet {s : State} {i : Instr} {w : Word} (hgaps : s.gaps = []) (hhigh : s.board.isRam (s.sp - 1#16))
    (hlow : s.board.isRam (s.sp - 2#16)) (hcell : ¬s.board.sameCell (s.sp - 2#16) (s.sp - 1#16))
    (hpush : s.pushed i = some w) :
    ∃ m, exec i s = .next m ∧ m.gaps = [] ∧ m.sp = s.sp - 2#16 ∧ m.memRead (s.sp - 2#16) = (lo w, m) ∧
      m.memRead (s.sp - 1#16) = (hi w, m) := by
  obtain ⟨m, hm, -, -, hframe, htwo⟩ := pushes_of_pushed hpush s (s.write (s.sp - 1#16) (hi w)) (s.gap_nil hgaps)
    (State.gap_nil _ hgaps)
  have hstored := htwo rfl
  have hdevice : ∀ a, s.board.isRam a → m.board.isDevice a = false := fun a ha => by
    rw [hframe]
    exact (s.board.isDevice_poke (s.sp - 1#16) a _).trans (s.board.not_isDevice_of_isRam a ha)
  have hreadLow : m.read (s.sp - 2#16) = lo w := hstored.second _ ⟨hlow, s.board.sameCell_refl _ hlow⟩
  have hreadHigh : m.read (s.sp - 1#16) = hi w :=
    hstored.first _ ⟨hhigh, s.board.sameCell_refl _ hhigh⟩ fun h => hcell h.2
  refine ⟨m, hm, by rw [hframe]; exact hgaps, by rw [hframe], ?_, ?_⟩
  · rw [m.memRead_memory _ (hdevice _ hlow), hreadLow]
  · rw [m.memRead_memory _ (hdevice _ hhigh), hreadHigh]

/-- Settles O34: the pop's two read cycles return what the push's two write cycles stored. -/
theorem popAfterPushReturnsTheWord : Obligations.PopAfterPushReturnsTheWord := by
  unfold Obligations.PopAfterPushReturnsTheWord
  intro s i j w hgaps hhigh hlow hcell hpush hj
  obtain ⟨m, hm, hmgaps, hsp, hreadLow, hreadHigh⟩ := exec_push_quiet hgaps hhigh hlow hcell hpush
  have hnext : s.sp - 2#16 + 1#16 = s.sp - 1#16 := by bv_omega
  have hpop := readsTwice_popped hj m m m (m.gap_nil hmgaps)
  rw [hsp, hnext, hreadLow, hreadHigh] at hpop
  obtain ⟨t, ht, -, hpopped, htsp⟩ := hpop (m.gap_nil hmgaps)
  refine ⟨m, t, hm, ht, hpopped.trans (congrArg some (word_hi_lo w)), htsp.trans ?_⟩
  exact BitVec.sub_add_cancel s.sp 2#16

/-! ## Exchanges -/

/-- EX (SP) in its four machine cycles: a word is read, and the register's is written in its place, the high byte first; then the word
read goes into the register by `k` (R188). -/
theorem exchanges_of_exec {i : Instr} {s : State} {w : Word} {k : Word → State → State} {post : State → Word → State → Prop}
    (hexec : exec i s = s.exchangeTop w fun old t => finish (k old t)) (hboard : ∀ old u, (k old u).board = u.board)
    (htick : ∀ old u, (k old u).tick = u.tick)
    (hpost : ∀ old q mem l,
      post q old { k old { q with board := { q.board with mem := mem, log := l } } with eiDelay := false }) :
    Exchanges (exec i) s w post := by
  intro m n p q hm hn hp hq
  have hwrites (old : Word) (x : State) :
      WritesTwice (fun y => y.writesThenEnds (s.sp + 1#16) (hi w) s.sp (lo w) (k old)) x (s.sp + 1#16) (hi w) s.sp (lo w)
        fun q t => post q old t :=
    writesTwice_of_writesThenEnds rfl (hboard old) (htick old) (hpost old)
  obtain ⟨t, ht, hfirst, hsecond, hend, htwo⟩ := hwrites (word (n.memRead (s.sp + 1#16)).1 (m.memRead s.sp).1) _ p q hp hq
  exact ⟨t, hexec.trans ((s.readWordThen_ok m n s.sp _ hm hn).trans ht), hfirst, hsecond, htwo, hend⟩

/-- EX DE,HL swaps the two pairs half by half (R185). -/
theorem exec_exDeHl (s : State) :
    exec .exDeHl s = .next { s with
      regs := { s.regs with d := s.regs.h, e := s.regs.l, h := s.regs.d, l := s.regs.e }, eiDelay := false } := by
  change finish ((s.setDE (word s.regs.h s.regs.l)).setHL (word s.regs.d s.regs.e)) = _
  simp only [State.setDE, State.setHL, hi_word, lo_word]
  rfl

/-- Settles O35: the register exchanges are swaps of fields, and EX (SP) is one operation for its three registers. -/
theorem exchangeInstructions : Obligations.ExchangeInstructions := by
  unfold Obligations.ExchangeInstructions
  intro s
  refine ⟨⟨_, exec_exDeHl s, fun _ => rfl, rfl⟩, ⟨_, rfl, fun _ => rfl, rfl⟩, ⟨_, rfl, fun _ => rfl, rfl⟩, ?_, ?_, ?_⟩
  · exact exchanges_of_exec (k := fun old t => t.setHL old) rfl (fun _ _ => rfl) (fun _ _ => rfl) fun _ _ _ _ => rfl
  · exact exchanges_of_exec (k := fun old t => { t with ix := old }) rfl (fun _ _ => rfl) (fun _ _ => rfl) fun _ _ _ _ => rfl
  · exact exchanges_of_exec (k := fun old t => { t with iy := old }) rfl (fun _ _ => rfl) (fun _ _ => rfl) fun _ _ _ _ => rfl

/-! ## Sample words -/

/-- Settles O3: each word is the encoding of the instruction it names. -/
theorem sampleWordsDecode : Obligations.SampleWordsDecode := by
  unfold Obligations.SampleWordsDecode
  exact ⟨decode_encode (.ldRR .d .e) rfl, decode_encode (.ldDdNn .de 0x1234#16) rfl, decode_encode (.ldIxR 0x05#8 .a) rfl,
    decode_encode (.bitR 1 .b) rfl, decode_encode .otir rfl, decode_encode (.bitIx 1 0x05#8) rfl⟩

end Sys2Proof.Machine

/-! # 8-bit arithmetic and logic (R220 to R251) -/

namespace Sys2Proof.Machine

/-! ## The five forms of an operation on A -/

/-- The five instructions are the operation `op` on A (R220): the register and the immediate form at once, the three memory forms after
a read cycle. -/
structure Accumulates (op : AluOp) (reg : Reg8 → Instr) (imm : Byte → Instr) (hl : Instr) (ix iy : Byte → Instr) : Prop where
  exec_reg : ∀ r s, exec (reg r) s = finish (s.accumulate op (s.reg8 r))
  exec_imm : ∀ n s, exec (imm n) s = finish (s.accumulate op n)
  exec_hl : ∀ s, exec hl s = s.readThen s.hl fun v t => finish (t.accumulate op v)
  exec_ix : ∀ d s, exec (ix d) s = s.readThen (s.ixd d) fun v t => finish (t.accumulate op v)
  exec_iy : ∀ d s, exec (iy d) s = s.readThen (s.iyd d) fun v t => finish (t.accumulate op v)

theorem accumulates_add : Accumulates .add .addAR .addAN .addAHl .addAIx .addAIy :=
  ⟨fun _ _ => rfl, fun _ _ => rfl, fun _ => rfl, fun _ _ => rfl, fun _ _ => rfl⟩

theorem accumulates_adc : Accumulates .adc .adcAR .adcAN .adcAHl .adcAIx .adcAIy :=
  ⟨fun _ _ => rfl, fun _ _ => rfl, fun _ => rfl, fun _ _ => rfl, fun _ _ => rfl⟩

theorem accumulates_sub : Accumulates .sub .subR .subN .subHl .subIx .subIy :=
  ⟨fun _ _ => rfl, fun _ _ => rfl, fun _ => rfl, fun _ _ => rfl, fun _ _ => rfl⟩

theorem accumulates_sbc : Accumulates .sbc .sbcAR .sbcAN .sbcAHl .sbcAIx .sbcAIy :=
  ⟨fun _ _ => rfl, fun _ _ => rfl, fun _ => rfl, fun _ _ => rfl, fun _ _ => rfl⟩

theorem accumulates_and : Accumulates .and .andR .andN .andHl .andIx .andIy :=
  ⟨fun _ _ => rfl, fun _ _ => rfl, fun _ => rfl, fun _ _ => rfl, fun _ _ => rfl⟩

theorem accumulates_xor : Accumulates .xor .xorR .xorN .xorHl .xorIx .xorIy :=
  ⟨fun _ _ => rfl, fun _ _ => rfl, fun _ => rfl, fun _ _ => rfl, fun _ _ => rfl⟩

theorem accumulates_or : Accumulates .or .orR .orN .orHl .orIx .orIy :=
  ⟨fun _ _ => rfl, fun _ _ => rfl, fun _ => rfl, fun _ _ => rfl, fun _ _ => rfl⟩

theorem accumulates_cp : Accumulates .cp .cpR .cpN .cpHl .cpIx .cpIy :=
  ⟨fun _ _ => rfl, fun _ _ => rfl, fun _ => rfl, fun _ _ => rfl, fun _ _ => rfl⟩

/-- What the operation does to A and F in every state, its five forms do. -/
theorem Accumulates.forms {op : AluOp} {reg : Reg8 → Instr} {imm : Byte → Instr} {hl : Instr} {ix iy : Byte → Instr}
    {post : State → Byte → State → Prop} (h : Accumulates op reg imm hl ix iy)
    (hpost : ∀ s v, post s v { s.accumulate op v with eiDelay := false }) : AccumulatorForms reg imm hl ix iy post := by
  have hread {i : Instr} {s : State} {a : Word} (hexec : exec i s = s.readThen a fun v t => finish (t.accumulate op v)) :
      ReadsOnce (exec i) s a post :=
    readsOnce_of_exec hexec fun v x => ⟨_, rfl, fun _ => rfl, hpost x v⟩
  intro s
  exact ⟨fun r => ⟨_, h.exec_reg r s, hpost s _⟩, fun n => ⟨_, h.exec_imm n s, hpost s n⟩, hread (h.exec_hl s),
    fun d => hread (h.exec_ix d s), fun d => hread (h.exec_iy d s)⟩

/-- No register but A and F changes (R220). -/
theorem State.accumulate_writesReg (s : State) (op : AluOp) (v : Byte) :
    WritesReg s { s.accumulate op v with eiDelay := false } .a (alu op s.unspec s.regs.f s.regs.a v).1 :=
  s.setAF_writesReg _

/-! ## Addition -/

@[simp] theorem carryByte_false : carryByte false = 0#8 := rfl

theorem toNat_add_carryByte (a v : Byte) (c : Bool) :
    (a + v + carryByte c).toNat = (a.toNat + v.toNat + c.toNat) % 256 := by
  cases c <;> simp [carryByte, BitVec.toNat_add]

theorem addOverflow_iff (a v : Byte) (c : Bool) :
    addOverflow a v c = true ↔ a.toInt + v.toInt + c.toNat < -128 ∨ 127 < a.toInt + v.toInt + c.toNat := by
  simp [addOverflow]

/-- A sum in A with the flags of its addition (R221, R222). -/
theorem State.setAF_addedToA (s : State) (v : Byte) (c : Bool) :
    AddedToA s { s.setAF (s.regs.a + v + carryByte c, addFlags s.unspec s.regs.a v c) with eiDelay := false } v c.toNat :=
  have hwrites := s.setAF_writesReg (s.regs.a + v + carryByte c, addFlags s.unspec s.regs.a v c)
  ⟨toNat_add_carryByte _ _ _, rfl, rfl, rfl, rfl, rfl, addOverflow_iff _ _ _, hwrites.others, hwrites.rest⟩

theorem State.accumulate_add (s : State) (v : Byte) :
    s.accumulate .add v = s.setAF (s.regs.a + v + carryByte false, addFlags s.unspec s.regs.a v false) := by
  rw [carryByte_false, BitVec.add_zero]
  rfl

/-- Settles O38: ADD is the addition without a carry, ADC the one with the carry flag. -/
theorem addAndAddWithCarry : Obligations.AddAndAddWithCarry := by
  unfold Obligations.AddAndAddWithCarry
  refine ⟨accumulates_add.forms fun s v => ?_, accumulates_adc.forms fun s v => s.setAF_addedToA v s.regs.f.c⟩
  rw [s.accumulate_add]
  exact s.setAF_addedToA v false

/-! ## Subtraction -/

theorem subOverflow_iff (a v : Byte) (c : Bool) :
    subOverflow a v c = true ↔ a.toInt - v.toInt - c.toNat < -128 ∨ 127 < a.toInt - v.toInt - c.toNat := by
  simp [subOverflow]

/-- The flags of a difference, with the borrow that comes in (R221, R224). -/
theorem subFlags_subtractFlags (u : Flags) (a v : Byte) (c : Bool) :
    SubtractFlags (subFlags u a v c) a v c.toNat (a - v - carryByte c) :=
  ⟨rfl, rfl, rfl, rfl, rfl, subOverflow_iff a v c⟩

/-- The flags of a difference without a borrow that comes in. -/
theorem subFlags_false_subtractFlags (u : Flags) (a v : Byte) : SubtractFlags (subFlags u a v false) a v 0 (a - v) := by
  have hflags := subFlags_subtractFlags u a v false
  rwa [carryByte_false, BitVec.sub_zero] at hflags

theorem subFlags_z_iff (u : Flags) (a v : Byte) : (subFlags u a v false).z = true ↔ a = v := by
  obtain ⟨-, hz, -⟩ := subFlags_false_subtractFlags u a v
  rw [hz, beq_iff_eq, BitVec.sub_eq_iff_eq_add, BitVec.zero_add]

theorem subFlags_c_iff (u : Flags) (a v : Byte) : (subFlags u a v false).c = true ↔ a.toNat < v.toNat :=
  decide_eq_true_iff

/-- Settles O39: SUB and CP have the flags of the difference without a borrow, SBC those with the carry flag as borrow. -/
theorem subtractAndCompare : Obligations.SubtractAndCompare := by
  unfold Obligations.SubtractAndCompare
  refine ⟨accumulates_sub.forms fun s v => ?_, accumulates_sbc.forms fun s v => ?_, accumulates_cp.forms fun s v => ?_⟩
  · have hwrites := s.accumulate_writesReg .sub v
    exact ⟨rfl, subFlags_false_subtractFlags _ _ _, hwrites.others, hwrites.rest⟩
  · have hwrites := s.accumulate_writesReg .sbc v
    exact ⟨rfl, subFlags_subtractFlags _ _ _ _, hwrites.others, hwrites.rest⟩
  · have hwrites := s.accumulate_writesReg .cp v
    refine ⟨subFlags_false_subtractFlags _ _ _, subFlags_z_iff _ _ _, subFlags_c_iff _ _ _, fun q => ?_, hwrites.rest⟩
    by_cases hq : q = .a
    · rw [hq]; exact hwrites.value
    · exact hwrites.others q hq

/-! ## Logic -/

/-- A logical result in A with its flags (R226 to R228). -/
theorem State.setAF_logicResult (s : State) (res : Byte) (half : Bool) :
    LogicResult s { s.setAF (res, logicFlags s.unspec res half) with eiDelay := false } res half :=
  have hwrites := s.setAF_writesReg (res, logicFlags s.unspec res half)
  ⟨rfl, rfl, rfl, rfl, parityEven_eq res, rfl, rfl, hwrites.others, hwrites.rest⟩

/-- Settles O40: the three operations differ in the result and in H. -/
theorem logicalOperations : Obligations.LogicalOperations := by
  unfold Obligations.LogicalOperations
  exact ⟨accumulates_and.forms fun s v => s.setAF_logicResult (s.regs.a &&& v) true,
    accumulates_xor.forms fun s v => s.setAF_logicResult (s.regs.a ^^^ v) false,
    accumulates_or.forms fun s v => s.setAF_logicResult (s.regs.a ||| v) false⟩

/-! ## The four forms of an operation on a byte -/

/-- The four instructions replace a byte and F by `g` (R235, R295): the register form at once, the memory forms by a read cycle and a
write cycle. -/
structure Modifies (g : Flags → Flags → Byte → Byte × Flags) (reg : Reg8 → Instr) (hl : Instr) (ix iy : Byte → Instr) :
    Prop where
  exec_reg : ∀ r s, exec (reg r) s = finish (s.modifyReg r g)
  exec_hl : ∀ s, exec hl s = s.modify s.hl g
  exec_ix : ∀ d s, exec (ix d) s = s.modify (s.ixd d) g
  exec_iy : ∀ d s, exec (iy d) s = s.modify (s.iyd d) g

theorem modifies_inc : Modifies incByte .incR .incHl .incIxd .incIyd :=
  ⟨fun _ _ => rfl, fun _ => rfl, fun _ _ => rfl, fun _ _ => rfl⟩

theorem modifies_dec : Modifies decByte .decR .decHl .decIxd .decIyd :=
  ⟨fun _ _ => rfl, fun _ => rfl, fun _ _ => rfl, fun _ _ => rfl⟩

/-- A register form replaces its register and F and nothing else (R236, R295). -/
theorem State.modifyReg_writesReg (s : State) (r : Reg8) (g : Flags → Flags → Byte → Byte × Flags) :
    WritesReg s { s.modifyReg r g with eiDelay := false } r (g s.unspec s.regs.f (s.reg8 r)).1 := by
  obtain ⟨hvalue, -, hothers, hrest⟩ := s.modifyReg_cases r g
  have hboard : (s.modifyReg r g).board = s.board := by rw [hrest]
  have htick : (s.modifyReg r g).tick = s.tick := by rw [hrest]
  exact ⟨hvalue, hothers, congrArg (fun x : State => { x with eiDelay := false }) hrest, sameMemory_of_board hboard htick⟩

/-- A memory form stores its result over the byte it read, and changes F and nothing else (R65, R237, R295). -/
theorem readsThenWrites_of_modify {i : Instr} {s : State} {a : Word} {g : Flags → Flags → Byte → Byte × Flags}
    (hexec : exec i s = s.modify a g) :
    ReadsThenWrites (exec i) s a a (fun v => (g s.unspec s.regs.f v).1)
      (fun n v t => OnlyMemFlags n t ∧ t.regs.f = (g s.unspec s.regs.f v).2) := by
  intro m n hm hn
  obtain ⟨mem, l, hwrite⟩ := n.write_eq a (g s.unspec s.regs.f (m.memRead a).1).1
  refine ⟨_, hexec.trans (s.modify_ok m n a g hm hn), (n.write_stored a _).trans_read (fun _ => rfl) rfl, ?_, rfl⟩
  rw [hwrite]
  rfl

/-- What `g` does to a byte and F, the four forms do. -/
theorem Modifies.forms {g : Flags → Flags → Byte → Byte × Flags} {reg : Reg8 → Instr} {hl : Instr} {ix iy : Byte → Instr}
    {res : State → Byte → Byte} {post : State → Byte → State → Prop} (h : Modifies g reg hl ix iy)
    (hres : ∀ s v, (g s.unspec s.regs.f v).1 = res s v)
    (hpost : ∀ s v t, t.regs.f = (g s.unspec s.regs.f v).2 → post s v t) : ByteForms reg hl ix iy res post := by
  have hmemory {i : Instr} {s : State} {a : Word} (hexec : exec i s = s.modify a g) :
      ReadsThenWrites (exec i) s a a (res s) (fun n v t => OnlyMemFlags n t ∧ post s v t) := by
    intro m n hm hn
    obtain ⟨t, ht, hstored, honly, hflags⟩ := readsThenWrites_of_modify hexec m n hm hn
    exact ⟨t, ht, hres s _ ▸ hstored, honly, hpost s _ t hflags⟩
  intro s
  exact ⟨fun r => ⟨_, h.exec_reg r s, hres s _ ▸ s.modifyReg_writesReg r g, hpost s _ _ rfl⟩, hmemory (h.exec_hl s),
    fun d => hmemory (h.exec_ix d s), fun d => hmemory (h.exec_iy d s)⟩

theorem add_one_beq_zero (v : Byte) : (v + 1#8 == 0#8) = (v == 0xFF#8) := by
  rw [Bool.eq_iff_iff, beq_iff_eq, beq_iff_eq]
  bv_omega

theorem sub_one_beq_zero (v : Byte) : (v - 1#8 == 0#8) = (v == 0x01#8) := by
  rw [Bool.eq_iff_iff, beq_iff_eq, beq_iff_eq]
  bv_omega

/-- Settles O41: the byte and the flags of INC and DEC, in the four forms. -/
theorem incrementAndDecrementOfAByte : Obligations.IncrementAndDecrementOfAByte := by
  unfold Obligations.IncrementAndDecrementOfAByte
  refine ⟨modifies_inc.forms (fun _ _ => rfl) fun s v t hf => ?_, modifies_dec.forms (fun _ _ => rfl) fun s v t hf => ?_⟩
  · rw [hf, ← add_one_beq_zero]
    exact ⟨rfl, rfl, rfl, rfl, rfl, rfl⟩
  · rw [hf, ← sub_one_beq_zero]
    exact ⟨rfl, rfl, rfl, rfl, rfl, rfl⟩

/-! ## Accumulator and flags -/

/-- F alone is replaced: A keeps its value. -/
theorem State.setF_writesReg (s : State) (f : Flags) : WritesReg s { s.setF f with eiDelay := false } .a s.regs.a :=
  s.setAF_writesReg (s.regs.a, f)

theorem not_eq_xor_ones (a : Byte) : ~~~a = a ^^^ 0xFF#8 := BitVec.xor_allOnes.symm

theorem negFlags_s (u : Flags) (a : Byte) : (negFlags u a).s = (-a).msb := by
  obtain ⟨hs, -⟩ := subFlags_false_subtractFlags u 0#8 a
  rw [negFlags, hs, BitVec.zero_sub]

theorem negFlags_z (u : Flags) (a : Byte) : (negFlags u a).z = (a == 0#8) := by
  rw [Bool.eq_iff_iff, negFlags, subFlags_z_iff, beq_iff_eq, eq_comm]

/-- A digit is borrowed from unless the low digit is 0 (R249). -/
theorem negFlags_h (u : Flags) (a : Byte) : (negFlags u a).h = (a.toNat % 16 != 0) := by
  obtain ⟨-, -, -, -, hh, -⟩ := subFlags_false_subtractFlags u 0#8 a
  rw [negFlags, hh, Bool.eq_iff_iff, decide_eq_true_iff, bne_iff_ne]
  simp only [BitVec.toNat_ofNat]
  omega

theorem negFlags_c (u : Flags) (a : Byte) : (negFlags u a).c = (a != 0#8) := by
  rw [Bool.eq_iff_iff, negFlags, subFlags_c_iff, bne_iff_ne]
  bv_omega

/-- -128 alone has no negative in a byte (R249). -/
theorem negFlags_pv (u : Flags) (a : Byte) : (negFlags u a).pv = (a == 0x80#8) := by
  have hoverflow : ∀ v : Byte, subOverflow 0#8 v false = (v == 0x80#8) := by decide
  exact hoverflow a

/-- NEG has the flags of 0 - A (R249). -/
theorem exec_neg (s : State) :
    exec .neg s = .next { s.setAF (-s.regs.a, negFlags s.unspec s.regs.a) with eiDelay := false } := by
  rw [← BitVec.zero_sub]
  rfl

/-- Settles O42: each form replaces A and F, or F alone. -/
theorem accumulatorAndFlagInstructions : Obligations.AccumulatorAndFlagInstructions := by
  unfold Obligations.AccumulatorAndFlagInstructions
  intro s
  refine ⟨?_, ?_, ?_, ?_⟩
  · rw [← not_eq_xor_ones]
    exact ⟨_, rfl, s.setAF_writesReg _, rfl, rfl, rfl, rfl, rfl, rfl⟩
  · exact ⟨_, exec_neg s, s.setAF_writesReg _, negFlags_s _ _, negFlags_z _ _, negFlags_h _ _, negFlags_pv _ _, rfl,
      negFlags_c _ _⟩
  · exact ⟨_, rfl, s.setF_writesReg _, rfl, rfl, rfl, rfl, rfl⟩
  · exact ⟨_, rfl, s.setF_writesReg _, rfl, rfl, rfl, rfl, rfl, rfl⟩

/-! ## Decimal adjust -/

theorem toNat_daaCorrection (f : Flags) (a : Byte) : (daaCorrection f a).toNat = decimalCorrection f a := by
  unfold daaCorrection decimalCorrection
  split <;> split <;> rfl

theorem decimalCorrection_le (f : Flags) (a : Byte) : decimalCorrection f a ≤ 0x66 := by
  unfold decimalCorrection
  split <;> split <;> decide

/-- The A of DAA as a number (R247). -/
theorem toNat_daa (u f : Flags) (a : Byte) :
    (daa u f a).1.toNat = (if f.n then a.toNat + 256 - decimalCorrection f a else a.toNat + decimalCorrection f a) % 256 := by
  have hle := decimalCorrection_le f a
  unfold daa
  dsimp only
  split
  · rw [BitVec.toNat_sub, toNat_daaCorrection]
    omega
  · rw [BitVec.toNat_add, toNat_daaCorrection]

theorem daa_h (u f : Flags) (a : Byte) :
    (daa u f a).2.h = if f.n then decide (a.toNat % 16 < decimalCorrection f a % 16)
      else decide (15 < a.toNat % 16 + decimalCorrection f a % 16) := by
  rw [← toNat_daaCorrection]
  rfl

theorem exec_daa (s : State) :
    exec .daa s = .next { s.setAF (daa s.unspec s.regs.f s.regs.a) with eiDelay := false } := rfl

/-- The correction, where it is known which of its digits is 6. -/
theorem decimalCorrection_eq {f : Flags} {a : Byte} {low high : Prop} [Decidable low] [Decidable high]
    (hlow : (f.h = true ∨ 9 < a.toNat % 16) ↔ low) (hhigh : (f.c = true ∨ 0x99 < a.toNat) ↔ high) :
    decimalCorrection f a = (if low then 6 else 0) + (if high then 0x60 else 0) := by
  simp only [decimalCorrection, hlow, hhigh]

theorem daa_c_iff (u f : Flags) (a : Byte) : (daa u f a).2.c = true ↔ f.c = true ∨ 0x99 < a.toNat := by
  simp [daa]

/-- A carry out of a byte, in numbers. -/
theorem toNat_of_iff {b : Bool} {p : Prop} [Decidable p] (h : b = true ↔ p) : b.toNat = if p then 1 else 0 := by
  split
  · next hp => rw [h.mpr hp]; rfl
  · next hp => rw [Bool.eq_false_iff.mpr (mt h.mp hp)]; rfl

section
variable {a v : Byte}

/-- After an addition of BCD bytes the low digit is corrected where the low digits add up to more than 9. -/
theorem addFlags_low_iff (u : Flags) (ha : isBcd a) (hv : isBcd v) :
    ((addFlags u a v false).h = true ∨ 9 < (a + v).toNat % 16) ↔ 9 < a.toNat % 16 + v.toNat % 16 := by
  obtain ⟨-, ha⟩ := ha
  obtain ⟨-, hv⟩ := hv
  have hhalf : (addFlags u a v false).h = true ↔ 15 < a.toNat % 16 + v.toNat % 16 := decide_eq_true_iff
  rw [hhalf, BitVec.toNat_add]
  omega

/-- The high digit is corrected, and C set, where the bytes add up to more than 99H. -/
theorem addFlags_high_iff (u : Flags) :
    ((addFlags u a v false).c = true ∨ 0x99 < (a + v).toNat) ↔ 0x99 < a.toNat + v.toNat := by
  have hcarry : (addFlags u a v false).c = true ↔ 255 < a.toNat + v.toNat := decide_eq_true_iff
  rw [hcarry, BitVec.toNat_add]
  omega

/-- DAA after an addition of BCD bytes: the sum in decimal, with its carry (R222, R247). -/
theorem daa_addFlags (u w : Flags) (ha : isBcd a) (hv : isBcd v) :
    isBcd (daa w (addFlags u a v false) (a + v)).1 ∧
    bcdValue (daa w (addFlags u a v false) (a + v)).1 + 100 * (daa w (addFlags u a v false) (a + v)).2.c.toNat =
      bcdValue a + bcdValue v := by
  have hcorrection := decimalCorrection_eq (addFlags_low_iff u ha hv) (addFlags_high_iff u)
  have hcarry := toNat_of_iff ((daa_c_iff w _ _).trans (addFlags_high_iff (a := a) (v := v) u))
  have hresult : (daa w (addFlags u a v false) (a + v)).1.toNat =
      ((a.toNat + v.toNat) % 256 + decimalCorrection (addFlags u a v false) (a + v)) % 256 := toNat_daa w _ _
  obtain ⟨hahigh, halow⟩ := ha
  obtain ⟨hvhigh, hvlow⟩ := hv
  unfold isBcd bcdValue
  rw [hcarry, hresult, hcorrection]
  split_ifs <;> omega

/-- After a subtraction of BCD bytes the low digit is corrected where it was borrowed from. -/
theorem subFlags_low_iff (u : Flags) (ha : isBcd a) (hv : isBcd v) :
    ((subFlags u a v false).h = true ∨ 9 < (a - v).toNat % 16) ↔ a.toNat % 16 < v.toNat % 16 := by
  obtain ⟨-, ha⟩ := ha
  obtain ⟨-, hv⟩ := hv
  have hhalf : (subFlags u a v false).h = true ↔ a.toNat % 16 < v.toNat % 16 := decide_eq_true_iff
  rw [hhalf, BitVec.toNat_sub]
  omega

/-- The high digit is corrected, and C set, where the first byte is below the second. -/
theorem subFlags_high_iff (u : Flags) (ha : isBcd a) :
    ((subFlags u a v false).c = true ∨ 0x99 < (a - v).toNat) ↔ a.toNat < v.toNat := by
  obtain ⟨hhigh, hlow⟩ := ha
  have hv := v.isLt
  rw [subFlags_c_iff, BitVec.toNat_sub]
  omega

/-- DAA after a subtraction of BCD bytes: the difference in decimal, with its borrow (R224, R247). -/
theorem daa_subFlags (u w : Flags) (ha : isBcd a) (hv : isBcd v) :
    isBcd (daa w (subFlags u a v false) (a - v)).1 ∧
    bcdValue (daa w (subFlags u a v false) (a - v)).1 + bcdValue v =
      bcdValue a + 100 * (daa w (subFlags u a v false) (a - v)).2.c.toNat := by
  have hcorrection := decimalCorrection_eq (subFlags_low_iff u ha hv) (subFlags_high_iff u ha)
  have hborrow := toNat_of_iff ((daa_c_iff w _ _).trans (subFlags_high_iff (v := v) u ha))
  have hresult : (daa w (subFlags u a v false) (a - v)).1.toNat =
      ((a - v).toNat + 256 - decimalCorrection (subFlags u a v false) (a - v)) % 256 := toNat_daa w _ _
  obtain ⟨hahigh, halow⟩ := ha
  obtain ⟨hvhigh, hvlow⟩ := hv
  unfold isBcd bcdValue
  rw [hborrow, hresult, hcorrection, BitVec.toNat_sub]
  split_ifs <;> omega

end

/-- Settles O43: the algorithm by its correction as a number, and the decimal results by where the correction's digits are 6. -/
theorem decimalAdjustGivesTheDecimalResult : Obligations.DecimalAdjustGivesTheDecimalResult := by
  unfold Obligations.DecimalAdjustGivesTheDecimalResult
  refine ⟨fun s => ?_, fun s n ha hn => ?_, fun s n ha hn => ?_⟩
  · exact ⟨_, exec_daa s, s.setAF_writesReg _, toNat_daa s.unspec _ _, daa_h _ _ _, rfl, rfl, rfl, rfl, parityEven_eq _⟩
  · exact ⟨_, _, accumulates_add.exec_imm n s, exec_daa _, daa_addFlags s.unspec _ ha hn⟩
  · exact ⟨_, _, accumulates_sub.exec_imm n s, exec_daa _, daa_subFlags s.unspec _ ha hn⟩

end Sys2Proof.Machine

/-! # 16-bit arithmetic (R260 to R275) -/

namespace Sys2Proof.Machine

/-! ## Addition and subtraction -/

/-- HL and F are replaced: no other register changes. -/
theorem State.setHL_setF_writesHl (s : State) (p : Word × Flags) :
    WritesHl s { (s.setHL p.1).setF p.2 with eiDelay := false } p.1 := by
  refine ⟨word_hi_lo p.1, fun q hh hl => ?_, rfl, fun _ => rfl⟩
  cases q with
  | h => exact absurd rfl hh
  | l => exact absurd rfl hl
  | a | b | c | d | e => rfl

/-- S and Z that show the word written to HL show HL. -/
theorem WritesHl.sign_zero {s t : State} {w : Word} (h : WritesHl s t w) (hs : t.regs.f.s = w.msb)
    (hz : t.regs.f.z = (w == 0#16)) : t.regs.f.s = t.hl.msb ∧ t.regs.f.z = (t.hl == 0#16) := by
  obtain ⟨hvalue, -, -⟩ := h
  rw [hvalue]
  exact ⟨hs, hz⟩

/-- The 16-bit ADD has the flags of R260, whichever register takes the sum. -/
theorem wordAddFlags_of_addWord {s t : State} {x y : Word} (hf : t.regs.f = (addWord s.unspec s.regs.f x y).2) :
    WordAddFlags s t x y := by
  unfold WordAddFlags
  rw [hf]
  exact ⟨rfl, rfl, rfl, rfl, rfl⟩

theorem adcWord_pv_iff (u f : Flags) (x y : Word) :
    (adcWord u f x y).2.pv = true ↔ x.toInt + y.toInt + f.c.toNat < -32768 ∨ 32767 < x.toInt + y.toInt + f.c.toNat := by
  simp [adcWord]

theorem sbcWord_pv_iff (u f : Flags) (x y : Word) :
    (sbcWord u f x y).2.pv = true ↔ x.toInt - y.toInt - f.c.toNat < -32768 ∨ 32767 < x.toInt - y.toInt - f.c.toNat := by
  simp [sbcWord]

/-- Settles O44: the sum or difference goes to HL, IX or IY, and S and Z of ADC and SBC are those of the HL that results. -/
theorem sixteenBitAddAndSubtract : Obligations.SixteenBitAddAndSubtract := by
  unfold Obligations.SixteenBitAddAndSubtract
  intro s
  refine ⟨fun ss => ?_, fun pp => ?_, fun rr => ?_, fun ss => ?_, fun ss => ?_⟩
  · exact ⟨_, rfl, s.setHL_setF_writesHl (addWord s.unspec s.regs.f s.hl (s.pairSp ss)), wordAddFlags_of_addWord rfl⟩
  · exact ⟨_, rfl, wordAddFlags_of_addWord rfl, fun _ => rfl, rfl⟩
  · exact ⟨_, rfl, wordAddFlags_of_addWord rfl, fun _ => rfl, rfl⟩
  · have hwrites := s.setHL_setF_writesHl (adcWord s.unspec s.regs.f s.hl (s.pairSp ss))
    obtain ⟨hsign, hzero⟩ := hwrites.sign_zero rfl rfl
    exact ⟨_, rfl, hwrites, hsign, hzero, rfl, rfl, adcWord_pv_iff _ _ _ _⟩
  · have hwrites := s.setHL_setF_writesHl (sbcWord s.unspec s.regs.f s.hl (s.pairSp ss))
    obtain ⟨hsign, hzero⟩ := hwrites.sign_zero rfl rfl
    exact ⟨_, rfl, hwrites, hsign, hzero, rfl, rfl, sbcWord_pv_iff _ _ _ _⟩

/-! ## Increment and decrement -/

/-- Settles O45: INC ss and DEC ss load their pair, as LD dd,nn does; those of IX and IY update one field. -/
theorem sixteenBitIncrementAndDecrement : Obligations.SixteenBitIncrementAndDecrement := by
  unfold Obligations.SixteenBitIncrementAndDecrement
  refine ⟨fun ss => ?_, ⟨rfl, rfl, rfl, rfl⟩, fun s => ?_⟩
  · rw [pairCode_eq]
    exact ⟨rfl, rfl⟩
  · exact ⟨fun ss => finish_setPairSp s ss _, ⟨_, rfl, fun _ => rfl, rfl⟩, ⟨_, rfl, fun _ => rfl, rfl⟩,
      fun ss => finish_setPairSp s ss _, ⟨_, rfl, fun _ => rfl, rfl⟩, ⟨_, rfl, fun _ => rfl, rfl⟩⟩

end Sys2Proof.Machine

/-! # Rotates and shifts of the CB group (R284 to R290, R295) -/

namespace Sys2Proof.Machine

/-! ## The shifts as arithmetic -/

theorem rotate_sla (c : Bool) (v : Byte) : (rotate .sla c v).1 = BitVec.ofNat 8 (2 * v.toNat) := by
  have hshift : (rotate .sla c v).1 = v <<< 1 := rfl
  apply BitVec.eq_of_toNat_eq
  rw [hshift, BitVec.toNat_shiftLeft, Nat.shiftLeft_eq, BitVec.toNat_ofNat, pow_one, Nat.mul_comm]

/-- The sign bit stays (R289). -/
theorem rotate_sra : ∀ v : Byte, (rotate .sra false v).1 = v.sshiftRight 1 := by decide

theorem rotate_srl (c : Bool) (v : Byte) : (rotate .srl c v).1 = BitVec.ofNat 8 (v.toNat / 2) := by
  have hshift : (rotate .srl c v).1 = v >>> 1 := rfl
  apply BitVec.eq_of_toNat_eq
  rw [hshift, BitVec.toNat_ushiftRight, Nat.shiftRight_eq_div_pow, pow_one, BitVec.toNat_ofNat, Nat.mod_eq_of_lt]
  exact (Nat.div_le_self _ _).trans_lt v.isLt

/-! ## The instructions -/

theorem modifies_rlc : Modifies (rotByte .rlc) .rlcR .rlcHl .rlcIx .rlcIy :=
  ⟨fun _ _ => rfl, fun _ => rfl, fun _ _ => rfl, fun _ _ => rfl⟩

theorem modifies_rrc : Modifies (rotByte .rrc) .rrcR .rrcHl .rrcIx .rrcIy :=
  ⟨fun _ _ => rfl, fun _ => rfl, fun _ _ => rfl, fun _ _ => rfl⟩

theorem modifies_rl : Modifies (rotByte .rl) .rlR .rlHl .rlIx .rlIy :=
  ⟨fun _ _ => rfl, fun _ => rfl, fun _ _ => rfl, fun _ _ => rfl⟩

theorem modifies_rr : Modifies (rotByte .rr) .rrR .rrHl .rrIx .rrIy :=
  ⟨fun _ _ => rfl, fun _ => rfl, fun _ _ => rfl, fun _ _ => rfl⟩

theorem modifies_sla : Modifies (rotByte .sla) .slaR .slaHl .slaIx .slaIy :=
  ⟨fun _ _ => rfl, fun _ => rfl, fun _ _ => rfl, fun _ _ => rfl⟩

theorem modifies_sra : Modifies (rotByte .sra) .sraR .sraHl .sraIx .sraIy :=
  ⟨fun _ _ => rfl, fun _ => rfl, fun _ _ => rfl, fun _ _ => rfl⟩

theorem modifies_srl : Modifies (rotByte .srl) .srlR .srlHl .srlIx .srlIy :=
  ⟨fun _ _ => rfl, fun _ => rfl, fun _ _ => rfl, fun _ _ => rfl⟩

/-! ## Result and flags -/

/-- The flags are those of the result and of the bit shifted out (R295). -/
theorem rotateFlags_of_rotByte {t : State} {op : RotOp} {u f : Flags} {v : Byte} (hf : t.regs.f = (rotByte op u f v).2) :
    RotateFlags t (rotate op f.c v).1 (rotate op f.c v).2 := by
  unfold RotateFlags
  rw [hf]
  exact ⟨rfl, rfl, rfl, rfl, rfl, parityEven_eq _⟩

/-- An operation whose result is `res` and whose bit shifted out is `out` has them in all its four forms. -/
theorem Modifies.rotateForms {op : RotOp} {reg : Reg8 → Instr} {hl : Instr} {ix iy : Byte → Instr} {res : State → Byte → Byte}
    {out : Byte → Bool} (h : Modifies (rotByte op) reg hl ix iy) (hres : ∀ s v, (rotate op s.regs.f.c v).1 = res s v)
    (hout : ∀ c v, (rotate op c v).2 = out v) :
    ByteForms reg hl ix iy res (fun s v t => RotateFlags t (res s v) (out v)) := by
  refine h.forms hres fun s v t hf => ?_
  rw [← hres, ← hout]
  exact rotateFlags_of_rotByte hf

/-- Settles O46: to the left bit 7 is shifted out, to the right bit 0; RL and RR alone take the carry in. -/
theorem rotatesAndShifts : Obligations.RotatesAndShifts := by
  unfold Obligations.RotatesAndShifts
  exact ⟨modifies_rlc.rotateForms (fun _ => rotate_rlc) fun _ => msb_eq_getLsbD_seven,
    modifies_rrc.rotateForms (fun _ => rotate_rrc) fun _ _ => rfl,
    modifies_rl.rotateForms (fun s => rotate_rl s.regs.f.c) fun _ => msb_eq_getLsbD_seven,
    modifies_rr.rotateForms (fun s => rotate_rr s.regs.f.c) fun _ _ => rfl,
    modifies_sla.rotateForms (fun s => rotate_sla s.regs.f.c) fun _ => msb_eq_getLsbD_seven,
    modifies_sra.rotateForms (fun _ => rotate_sra) fun _ _ => rfl,
    modifies_srl.rotateForms (fun s => rotate_srl s.regs.f.c) fun _ _ => rfl⟩

end Sys2Proof.Machine

/-! # Bit test, bit set and bit reset (R310 to R321) -/

namespace Sys2Proof.Machine

/-! ## BIT -/

/-- A bit tested and the end of the instruction: F alone is replaced (R321). -/
theorem State.testBit_bitShown (s : State) (b : Nat) (v : Byte) :
    BitShown s { s.testBit b v with eiDelay := false } (v.getLsbD b) :=
  ⟨rfl, rfl, rfl, rfl, s.reg8_setF _, (s.setF_writesReg _).rest⟩

/-- A memory form of BIT tests the byte of its one read cycle (R311, R312). -/
theorem readsOnce_testBit {i : Instr} {s : State} {a : Word} {b : Nat}
    (hexec : exec i s = s.readThen a fun v t => finish (t.testBit b v)) :
    ReadsOnce (exec i) s a (fun x v t => BitShown x t (v.getLsbD b)) :=
  readsOnce_of_exec hexec fun v x => ⟨_, rfl, fun _ => rfl, x.testBit_bitShown b v⟩

/-- Settles O48: the four forms are one update of F. -/
theorem bitTestShowsTheComplement : Obligations.BitTestShowsTheComplement := by
  unfold Obligations.BitTestShowsTheComplement
  intro s b _
  exact ⟨fun r => ⟨_, rfl, s.testBit_bitShown b (s.reg8 r)⟩, readsOnce_testBit rfl, fun _ => readsOnce_testBit rfl,
    fun _ => readsOnce_testBit rfl⟩

/-! ## SET and RES -/

/-- The four instructions replace a byte by `put b` of it (R313, R316): the register form at once, the memory forms by a read cycle and
a write cycle. -/
structure Rewrites (put : Nat → Byte → Byte) (reg : Nat → Reg8 → Instr) (hl : Nat → Instr) (ix iy : Nat → Byte → Instr) :
    Prop where
  exec_reg : ∀ b r s, exec (reg b r) s = finish (s.setReg8 r (put b (s.reg8 r)))
  exec_hl : ∀ b s, exec (hl b) s = s.rewrite s.hl (put b)
  exec_ix : ∀ b d s, exec (ix b d) s = s.rewrite (s.ixd d) (put b)
  exec_iy : ∀ b d s, exec (iy b d) s = s.rewrite (s.iyd d) (put b)

theorem rewrites_set : Rewrites setBit .setR .setHl .setIx .setIy :=
  ⟨fun _ _ _ => rfl, fun _ _ => rfl, fun _ _ _ => rfl, fun _ _ _ => rfl⟩

theorem rewrites_res : Rewrites resetBit .resR .resHl .resIx .resIy :=
  ⟨fun _ _ _ => rfl, fun _ _ => rfl, fun _ _ _ => rfl, fun _ _ _ => rfl⟩

/-- A memory form stores its result over the byte it read, and changes nothing else, F included (R65, R314, R317). -/
theorem readsThenWrites_of_rewrite {i : Instr} {s : State} {a : Word} {g : Byte → Byte} (hexec : exec i s = s.rewrite a g) :
    ReadsThenWrites (exec i) s a a g (fun n _ t => OnlyMem n t) := by
  intro m n hm hn
  exact ⟨_, hexec.trans (s.rewrite_ok m n a g hm hn), (n.write_stored a _).trans_read (fun _ => rfl) rfl, n.write_onlyMem a _⟩

/-- What `put` does to the bits of a byte, the four forms do. -/
theorem Rewrites.putForms {put : Nat → Byte → Byte} {reg : Nat → Reg8 → Instr} {hl : Nat → Instr} {ix iy : Nat → Byte → Instr}
    {bit : Bool} (h : Rewrites put reg hl ix iy) (hput : ∀ v b, b < 8 → BitPut v (put b v) b bit) :
    PutForms reg hl ix iy bit := by
  intro s b hb
  exact ⟨put b, fun v => hput v b hb, fun r => h.exec_reg b r s ▸ finish_setReg8 s r _,
    readsThenWrites_of_rewrite (h.exec_hl b s), fun d => readsThenWrites_of_rewrite (h.exec_ix b d s),
    fun d => readsThenWrites_of_rewrite (h.exec_iy b d s)⟩

/-- Settles O49: SET puts 1 and RES puts 0 into the one bit of the byte that the four forms replace. -/
theorem bitSetAndReset : Obligations.BitSetAndReset := by
  unfold Obligations.BitSetAndReset
  exact ⟨rewrites_set.putForms fun v b hb k hk => setBit_bit v b k hb hk,
    rewrites_res.putForms fun v b hb k hk => resetBit_bit v b k hb hk⟩

end Sys2Proof.Machine

/-! # Jumps, calls and returns (R330 to R362) -/

namespace Sys2Proof.Machine

/-- The model's flag test is the one of R331's table. -/
theorem Flags.holds_iff (f : Flags) (cc : Cond) : f.holds cc = true ↔ condition f cc := by
  cases cc with
  | nz | nc | po | p => exact iff_of_eq (Bool.not_eq_true' _)
  | z | c | pe | m => exact Iff.rfl

/-! ## Jumps -/

theorem finish_jump (s : State) (target : Word) : ∃ t, finish (s.jump target) = .next t ∧ At s t target :=
  ⟨_, rfl, rfl, fun _ => rfl⟩

/-- Where a jump is not taken, the next instruction in memory follows (R330). -/
theorem at_pc_of_eq_finish {o : Result} {s : State} (ho : o = finish s) : ∃ t, o = .next t ∧ At s t s.pc :=
  ⟨_, ho, rfl, fun _ => rfl⟩

theorem finish_jumpIf (s : State) (c : Bool) (target : Word) :
    ∃ t, finish (s.jumpIf c target) = .next t ∧ At s t (if c then target else s.pc) := by
  cases c with
  | false => exact at_pc_of_eq_finish rfl
  | true => exact finish_jump s target

theorem finish_jumpIf_not (s : State) (c : Bool) (target : Word) :
    ∃ t, finish (s.jumpIf (!c) target) = .next t ∧ At s t (if c then s.pc else target) := by
  cases c with
  | false => exact finish_jump s target
  | true => exact at_pc_of_eq_finish rfl

/-- DJNZ branches but where B was 1, which is where it becomes 0 (R345). -/
theorem exec_djnz (s : State) (e : Byte) :
    ∃ t, exec (.djnz e) s = .next t ∧
      At (s.setReg8 .b (s.regs.b - 1#8)) t (if s.regs.b = 1#8 then s.pc else s.branchTarget e) := by
  have hcount : (!(s.regs.b == 1#8)) = (s.regs.b - 1#8 != 0#8) := (sub_one_bne_zero s.regs.b).symm
  have hjump := finish_jumpIf_not (s.setReg8 .b (s.regs.b - 1#8)) (s.regs.b == 1#8) (s.branchTarget e)
  simp only [hcount, beq_iff_eq, State.setReg8_pc] at hjump
  exact hjump

/-- Settles O50: every jump is `State.jump` or `State.jumpIf`, DJNZ after it has counted B down. -/
theorem jumpsGoToTheirTargets : Obligations.JumpsGoToTheirTargets := by
  unfold Obligations.JumpsGoToTheirTargets
  intro s
  refine ⟨finish_jump s, fun cc nn => ?_, finish_jump s s.hl, finish_jump s s.ix, finish_jump s s.iy, fun e => ?_⟩
  · obtain ⟨t, ht, hat⟩ := finish_jumpIf s (s.regs.f.holds cc) nn
    have hcond := s.regs.f.holds_iff cc
    exact ⟨t, ht, fun h => by rwa [if_pos (hcond.mpr h)] at hat, fun h => by rwa [if_neg (mt hcond.mp h)] at hat⟩
  · obtain ⟨t, ht, heq, hmem⟩ := exec_djnz s e
    exact ⟨finish_jump s (s.branchTarget e), finish_jumpIf_not s s.regs.f.z (s.branchTarget e),
      finish_jumpIf s s.regs.f.z (s.branchTarget e), finish_jumpIf_not s s.regs.f.c (s.branchTarget e),
      finish_jumpIf s s.regs.f.c (s.branchTarget e), t, ht, hmem, heq⟩

/-! ## Calls -/

/-- A call in its two write cycles (R350). -/
theorem calls_of_exec {i : Instr} {s : State} {target : Word} (hexec : exec i s = s.call target) : Calls (exec i) s target :=
  writesTwice_of_writesThenEnds (k := fun u => { u with pc := target, sp := s.sp - 2#16 }) hexec (fun _ => rfl)
    (fun _ => rfl) fun _ _ _ => rfl

/-- A restart address is in page zero (R362). -/
theorem word_zero_ofNat {n : Nat} (hn : n < 256) : word 0#8 (BitVec.ofNat 8 n) = BitVec.ofNat 16 n := by
  apply BitVec.eq_of_toNat_eq
  rw [word_toNat, BitVec.toNat_ofNat, BitVec.toNat_ofNat, BitVec.toNat_ofNat]
  omega

/-- Settles O51: every call that is taken is `State.call`. -/
theorem callsPushTheReturnAddress : Obligations.CallsPushTheReturnAddress := by
  unfold Obligations.CallsPushTheReturnAddress
  refine fun s => ⟨fun _ => calls_of_exec rfl, fun cc nn => ⟨fun h => ?_, fun h => ?_⟩, fun k hk => ?_⟩
  · exact calls_of_exec (if_pos ((s.regs.f.holds_iff cc).mpr h))
  · exact at_pc_of_eq_finish (if_neg (mt (s.regs.f.holds_iff cc).mp h))
  · rw [← word_zero_ofNat (n := 8 * k) (by omega)]
    exact calls_of_exec rfl

/-! ## Returns -/

/-- A return in its two read cycles (R355). -/
theorem returnsAt_of_eq_ret {o : State → Result} {s : State} (ho : o s = s.ret) : ReturnsAt o s := by
  intro m n hm hn
  exact ⟨_, ho.trans (s.ret_ok m n hm hn), n.memRead_read (s.sp + 1#16), rfl⟩

/-- Settles O52: every return that is taken is `State.ret`, RETI's after the chips are told and RETN's after IFF2 is copied. -/
theorem returnsPopTheirAddress : Obligations.ReturnsPopTheirAddress := by
  unfold Obligations.ReturnsPopTheirAddress
  intro s
  obtain ⟨hkeeps, hlog⟩ := s.board.notifyReti_keeps
  refine ⟨returnsAt_of_eq_ret rfl, fun cc => ⟨fun h => ?_, fun h => ?_⟩, returnsAt_of_eq_ret rfl, hlog, hkeeps.mem,
    returnsAt_of_eq_ret rfl⟩
  · exact returnsAt_of_eq_ret (if_pos ((s.regs.f.holds_iff cc).mpr h))
  · exact at_pc_of_eq_finish (if_neg (mt (s.regs.f.holds_iff cc).mp h))

end Sys2Proof.Machine

/-! # CPU control and the HALT state (R401 to R407, R452) -/

namespace Sys2Proof.Machine

/-! ## CPU control -/

/-- An outcome that leaves the board and the tick alone leaves what memory reads as. -/
theorem completes_of_eq_next {o : Result} {s u : State} (ho : o = .next u) (hb : u.board = s.board) (ht : u.tick = s.tick) :
    ∃ t, o = .next t ∧ t = u ∧ SameMemory s t :=
  ⟨u, ho, rfl, sameMemory_of_board hb ht⟩

/-- Settles O57: none has a machine cycle after its fetch, so each ends in its own record update, with `ei_delay` as `finish` leaves
it and EI sets it. -/
theorem cpuControlInstructions : Obligations.CpuControlInstructions := by
  unfold Obligations.CpuControlInstructions
  intro s
  refine ⟨?nop, ?halt, ?di, ?ei, ?im0, ?im1, ?im2⟩
  all_goals exact completes_of_eq_next rfl rfl rfl

/-! ## The boundary in the HALT state -/

/-- In the HALT state no instruction is fetched (R402). -/
theorem State.boundary_ne_run_of_halted {s : State} (inp : Input) (h : s.halted = true) : s.boundary inp ≠ .run := by
  simp only [State.boundary, h, if_true]
  repeat' split
  all_goals exact nofun

/-- With all lines at rest a unit of the chain alone pulls INT (R445). -/
theorem State.intLine_quiet (s : State) : s.intLine Input.quiet = s.board.requester.isSome := Bool.false_or _

/-- What keeps INT from being accepted with all lines at rest (R425, R434). -/
theorem State.int_not_accepted {s : State} (h : s.iff1 = false ∨ s.eiDelay = true ∨ s.board.requester = none) :
    (s.intLine Input.quiet && s.iff1 && !s.eiDelay) = false := by
  rw [s.intLine_quiet]
  rcases h with h | h | h <;> simp [h]

/-- The HALT state goes on where nothing arrives and nothing can be accepted (R402). -/
theorem State.boundary_idle {s : State} (hdma : s.board.dmas = []) (hhalt : s.halted = true) (hnmi : s.nmiPending = false)
    (hint : s.iff1 = false ∨ s.eiDelay = true ∨ s.board.requester = none) : s.boundary Input.quiet = .idle := by
  have hmaster : Input.quiet.master = [] := rfl
  have hreset : Input.quiet.reset = false := rfl
  have hbusrq : Input.quiet.busrq = false := rfl
  simp [State.boundary, hmaster, hreset, hbusrq, s.board.busWanted_no_dma false hdma, hnmi, State.int_not_accepted hint, hhalt]

/-! ## A step in the HALT state -/

/-- Time in the HALT state keeps bit 7 of R (R38, R452). -/
theorem State.haltedR_bit7 (s : State) : s.haltedR &&& 0x80#8 = s.r &&& 0x80#8 := by
  have hlow : ∀ q : BitVec 7, q.setWidth 8 &&& 0x80#8 = 0#8 := by decide
  rw [State.haltedR, BitVec.and_or_distrib_right, hlow, BitVec.and_assoc, BitVec.and_self, BitVec.or_zero]

/-- All that an idle step can leave: R may differ, and the board by what a transparent DMA does (R402, R542). -/
theorem State.idle_cases {s t : State} (h : s.idle = .next t) : ∃ b, t = { s with r := s.haltedR, board := b } := by
  rcases s.afterM1_cases (fun u => .next { u with r := u.haltedR }) with ⟨b, -, e⟩ | ⟨e', -, e⟩ <;>
    cases e.symm.trans h
  exact ⟨b, rfl⟩

theorem State.idle_no_dma {s : State} (h : s.board.dmas = []) : s.idle = .next { s with r := s.haltedR } :=
  State.afterM1_ok s s _ (s.afterM1_no_dma h)

/-- A step in which nothing arrives in the HALT state is an idle one. -/
theorem step_idle {s : State} (hin : s.inputs = []) (hdma : s.board.dmas = []) (hhalt : s.halted = true)
    (hnmi : s.nmiPending = false) (hint : s.iff1 = false ∨ s.eiDelay = true ∨ s.board.requester = none) :
    step s = .next { s.arrive with r := s.arrive.haltedR } := by
  have harrive := State.arrive_quiet hin hdma
  have hquiet : s.input = Input.quiet := by rw [State.input, hin]; rfl
  have hdma' := s.arrive_no_dma hdma
  have hidle : s.arrive.boundary s.input = .idle := by
    rw [hquiet, harrive]
    exact State.boundary_idle hdma hhalt hnmi hint
  calc step s
    _ = s.arrive.resume.idle := (step_eq s).2.2.1 hidle
    _ = s.arrive.idle := by rw [State.resume_no_dma _ hdma']
    _ = .next { s.arrive with r := s.arrive.haltedR } := State.idle_no_dma hdma'

/-- Settles O16: a quiet step is an idle one, of which R alone is left; of the other cases of a step a grant of the bus and an idle
step keep the HALT state, and no instruction runs in it. -/
theorem haltStateWaitsForAnInterrupt : Obligations.HaltStateWaitsForAnInterrupt := by
  unfold Obligations.HaltStateWaitsForAnInterrupt
  refine ⟨fun s hin hdma hhalt hnmi hint => ?_, fun s t hhalt hstep hleft => ?_⟩
  · refine ⟨_, step_idle hin hdma hhalt hnmi hint, ?_, s.arrive.haltedR_bit7⟩
    rw [State.arrive_quiet hin hdma]
  · have hkept : t.halted ≠ s.halted := by rw [hhalt, hleft]; exact nofun
    rcases step_cases s t hstep with
      ⟨hreset, -⟩ | ⟨-, b, -, rfl⟩ | ⟨n, -, b, -, rfl⟩ | ⟨hnmi, -⟩ | ⟨hint, -⟩ | ⟨-, hidle⟩ | ⟨hrun, -⟩
    · exact .inl hreset
    · exact absurd rfl hkept
    · exact absurd rfl hkept
    · exact .inr (.inl hnmi)
    · exact .inr (.inr hint)
    · obtain ⟨b, rfl⟩ := State.idle_cases hidle
      exact absurd rfl hkept
    · exact absurd hrun (State.boundary_ne_run_of_halted s.input hhalt)

end Sys2Proof.Machine

/-! # The boundary, the grant of the bus and RESET (R421 to R425, R460, R580) -/

namespace Sys2Proof.Machine

/-! ## The order of the cases -/

/-- A host that lists accesses of another master only with BUSRQ keeps its duty of R470 at the boundary. -/
theorem Input.keeps_duty {inp : Input} (h : inp.master = [] ∨ (inp.busrq = true ∧ inp.reset = false)) :
    ¬(inp.master ≠ [] ∧ (inp.reset = true ∨ inp.busrq = false)) := by
  rintro ⟨hmaster, hlines⟩
  rcases h with hnone | ⟨hbusrq, hreset⟩
  · exact hmaster hnone
  · rw [hbusrq, hreset] at hlines
    exact hlines.elim nofun nofun

/-- Settles O11: along the cases of `State.boundary`, each of which excludes those before it. -/
theorem boundaryFollowsThePriorityOrder : Obligations.BoundaryFollowsThePriorityOrder := by
  unfold Obligations.BoundaryFollowsThePriorityOrder
  intro s inp hduty
  rw [State.boundary, if_neg (Input.keeps_duty hduty)]
  cases hreset : inp.reset with
  | true => simp
  | false =>
    cases hbusrq : inp.busrq with
    | true => simp
    | false =>
      cases hdma : s.board.busWanted false with
      | some n => simp
      | none =>
        cases hnmi : s.nmiPending with
        | true => simp
        | false =>
          cases hint : s.intLine inp && s.iff1 && !s.eiDelay with
          | true => simpa [and_assoc] using hint
          | false => cases s.halted <;> simpa [and_assoc] using hint

/-! ## The grant of the bus -/

/-- Settles O17: of the cases of a step, the two in which the bus is granted replace the board alone. -/
theorem busGrantLeavesTheCpuAlone : Obligations.BusGrantLeavesTheCpuAlone := by
  unfold Obligations.BusGrantLeavesTheCpuAlone
  intro s t hgrant hstep
  rcases step_cases s t hstep with
    ⟨hcase, -⟩ | ⟨-, b, -, rfl⟩ | ⟨n, -, b, -, rfl⟩ | ⟨hcase, -⟩ | ⟨hcase, -⟩ | ⟨hcase, -⟩ | ⟨hcase, -⟩
  case inr.inl | inr.inr.inl => rfl
  all_goals
    rw [hcase] at hgrant
    rcases hgrant with h | ⟨n, h⟩ <;> cases h

/-! ## RESET -/

/-- What the peripherals and the DMA chips do at the start of a step or of a gap changes no memory (R75). -/
theorem Board.events_pollDmas_mem (b : Board) (tick : Nat) (es : List ChipEvent) :
    (b.events tick es).pollDmas.mem = b.mem :=
  ((b.events_keeps tick es).trans (Board.pollDmas_keeps _)).mem

/-- Settles O10: the step is `State.performReset` of the state at arrival. -/
theorem resetLineClearsTheControlState : Obligations.ResetLineClearsTheControlState := by
  unfold Obligations.ResetLineClearsTheControlState
  intro s hreset hmaster
  have hcase : s.arrive.boundary s.input = .reset := by
    rw [State.boundary, if_neg (Input.keeps_duty (.inl hmaster)), if_pos hreset]
  have hstep : step s = .next s.arrive.performReset := by rw [step, State.carryOut, hcase]
  exact ⟨_, hstep, rfl, rfl, rfl, rfl, rfl, rfl, rfl, rfl, rfl, s.board.events_pollDmas_mem _ _⟩

end Sys2Proof.Machine

/-! # How an instruction can end before its last machine cycle (R76, R78, R420, R421, R580) -/

namespace Sys2Proof.Machine

/-! ## No instruction faults -/

/-- What an instruction `i` that began in `s` can answer: no fault (R420), and a next state where nothing falls between its cycles and
no chip can refuse a word. -/
structure Answers (i : Instr) (s : State) (o : Result) : Prop where
  no_fault : ∀ f, o ≠ .fault f
  completes : s.gaps = [] → i.reachesDevices = false → Completes o

section
variable {i : Instr} {s m : State}

theorem Answers.next (t : State) : Answers i s (.next t) := ⟨nofun, fun _ _ => ⟨t, rfl⟩⟩

theorem Answers.finish (t : State) : Answers i s (Machine.finish t) := .next _

/-- What a gap answers in place of the instruction is a next state or a refusal (R421, R580). -/
theorem State.gap_error_ne_fault {o : Result} (h : m.gap = .error o) (f : Fault) : o ≠ .fault f := by
  rcases m.gap_cases with ⟨-, e⟩ | ⟨g, rest, b, -, -, ⟨e', e⟩ | ⟨-, e⟩ | ⟨-, c, -, e⟩⟩ <;> cases e.symm.trans h <;> exact nofun

/-- Where the step began with no gap listed, none is listed later. -/
theorem Passes.gaps_nil (h : Passes s m) (hs : s.gaps = []) : m.gaps = [] := List.suffix_nil.mp (hs ▸ h.gaps)

theorem Passes.answersCycle {k : State → Result} (h : Passes s m) (hk : ∀ n, Passes s n → Answers i s (k n)) :
    Answers i s (m.cycle k) := by
  cases hgap : m.gap with
  | ok n => rw [m.cycle_ok n k hgap]; exact hk n (h.gap hgap)
  | error o =>
    rw [m.cycle_error o k hgap]
    refine ⟨State.gap_error_ne_fault hgap, fun hs => ?_⟩
    cases (m.gap_nil (h.gaps_nil hs)).symm.trans hgap

theorem Passes.answersInternal (c : Nat) {k : State → Result} (h : Passes s m)
    (hk : ∀ n, Passes s n → Answers i s (k n)) : Answers i s (m.internal c k) := by
  induction c generalizing m with
  | zero => exact hk m h
  | succ c ih => exact h.answersCycle fun _ h => ih h

theorem Passes.answersRead {a : Word} {k : Byte → State → Result} (h : Passes s m)
    (hk : ∀ v n, Passes s n → Answers i s (k v n)) : Answers i s (m.readThen a k) :=
  h.answersCycle fun _ h => hk _ _ (h.withBoard _)

theorem Passes.answersWrite {a : Word} {v : Byte} {k : State → Result} (h : Passes s m)
    (hk : ∀ n, Passes s n → Answers i s (k n)) : Answers i s (m.writeThen a v k) :=
  h.answersCycle fun _ h => hk _ (h.withBoard _)

theorem Passes.answersReadWord {a : Word} {k : Word → State → Result} (h : Passes s m)
    (hk : ∀ w n, Passes s n → Answers i s (k w n)) : Answers i s (m.readWordThen a k) :=
  h.answersRead fun _ _ h => h.answersRead fun _ _ h => hk _ _ h

theorem Passes.answersPortRead {port : Word} {k : Byte → State → Result} (h : Passes s m)
    (hk : ∀ v n, Passes s n → Answers i s (k v n)) : Answers i s (m.portReadThen port k) :=
  h.answersCycle fun _ h => hk _ _ (h.withBoard _)

/-- An I/O write may be refused, which is no fault (R484). -/
theorem Passes.answersPortWrite {port : Word} {v : Byte} {k : State → Result} (h : Passes s m) (hi : i.reachesDevices = true)
    (hk : ∀ n, Passes s n → Answers i s (k n)) : Answers i s (m.portWriteThen port v k) := by
  refine h.answersCycle fun n h => ?_
  split
  · exact hk _ (h.withBoard _)
  · exact ⟨nofun, fun _ hd => absurd (hi.symm.trans hd) nofun⟩

theorem Passes.answersStoreWord {a w : Word} (h : Passes s m) : Answers i s (m.writeWordThen a w Machine.finish) :=
  h.answersWrite fun _ h => h.answersWrite fun n _ => .finish n

theorem Passes.answersModify {a : Word} {g : Flags → Flags → Byte → Byte × Flags} (h : Passes s m) :
    Answers i s (m.modify a g) :=
  h.answersRead fun _ _ h => h.answersWrite fun _ _ => .finish _

theorem Passes.answersRewrite {a : Word} {g : Byte → Byte} (h : Passes s m) : Answers i s (m.rewrite a g) :=
  h.answersRead fun _ _ h => h.answersWrite fun _ _ => .finish _

theorem Passes.answersRotateDigits {g : Byte → Byte → Byte × Byte} (h : Passes s m) : Answers i s (m.rotateDigits g) :=
  h.answersRead fun _ _ h => h.answersInternal _ fun _ h => h.answersWrite fun _ _ => .finish _

theorem Passes.answersPush {w : Word} {k : State → State} (h : Passes s m) :
    Answers i s (m.pushThen w fun t => Machine.finish (k t)) :=
  h.answersWrite fun _ h => h.answersWrite fun _ _ => .finish _

theorem Passes.answersPop {k : Word → State → State} (h : Passes s m) :
    Answers i s (m.popThen fun w t => Machine.finish (k w t)) :=
  h.answersReadWord fun _ _ _ => .finish _

theorem Passes.answersCall {target : Word} (h : Passes s m) : Answers i s (m.call target) :=
  h.answersPush (k := fun t => t.jump target)

theorem Passes.answersRet (h : Passes s m) : Answers i s m.ret := h.answersPop (k := fun w t => t.jump w)

/-- An exchange with the top of the stack (R188). -/
theorem Passes.answersExchangeTop {w : Word} {k : Word → State → State} (h : Passes s m) :
    Answers i s (m.exchangeTop w fun v t => Machine.finish (k v t)) :=
  h.answersReadWord fun _ _ h => h.answersWrite fun _ h => h.answersWrite fun _ _ => .finish _

theorem Passes.answersBlockTransfer {down again : Bool} (h : Passes s m) : Answers i s (m.blockTransfer down again) :=
  h.answersRead fun _ _ h => h.answersWrite fun _ h => h.answersInternal _ fun _ _ => .finish _

theorem Passes.answersBlockSearch {down repeats : Bool} (h : Passes s m) : Answers i s (m.blockSearch down repeats) :=
  h.answersRead fun _ _ h => h.answersInternal _ fun _ _ => .finish _

theorem Passes.answersBlockInput {down again : Bool} (h : Passes s m) : Answers i s (m.blockInput down again) :=
  h.answersPortRead fun _ _ h => h.answersWrite fun _ h => h.answersInternal _ fun _ _ => .finish _

theorem Passes.answersBlockOutput {down again : Bool} (h : Passes s m) (hi : i.reachesDevices = true) :
    Answers i s (m.blockOutput down again) :=
  h.answersRead fun _ _ h => h.answersPortWrite hi fun _ h => h.answersInternal _ fun _ _ => .finish _

end

theorem exec_answers (i : Instr) (s : State) : Answers i s (exec i s) := by
  have h := Passes.refl s
  cases i <;> dsimp only [exec]
  -- no machine cycle after the fetch
  case ldRR | ldRN | ldAI | ldAR | ldIA | ldRA | ldDdNn | ldIxNn | ldIyNn | ldSpHl | ldSpIx | ldSpIy | exDeHl | exAfAf | exx |
      addAR | addAN | adcAR | adcAN | subR | subN | sbcAR | sbcAN | andR | andN | xorR | xorN | orR | orN | cpR | cpN | incR |
      decR | daa | cpl | neg | ccf | scf | addHlSs | addIxPp | addIyRr | adcHlSs | sbcHlSs | incSs | incIx | incIy | decSs |
      decIx | decIy | rlca | rrca | rla | rra | rlcR | rrcR | rlR | rrR | slaR | sraR | srlR | bitR | setR | resR | jpNn | jpCcNn |
      jpHl | jpIx | jpIy | jrE | jrNz | jrZ | jrNc | jrC | djnz | nop | halt | di | im0 | im1 | im2 =>
    exact .finish _
  case ei => exact .next _
  -- reads
  case ldRHl | ldRIx | ldRIy | ldABc | ldADe | ldAMem | addAHl | addAIx | addAIy | adcAHl | adcAIx | adcAIy | subHl | subIx |
      subIy | sbcAHl | sbcAIx | sbcAIy | andHl | andIx | andIy | xorHl | xorIx | xorIy | orHl | orIx | orIy | cpHl | cpIx | cpIy |
      bitHl | bitIx | bitIy =>
    exact h.answersRead fun _ _ _ => .finish _
  case ldHlMem | ldDdMem | ldIxMem | ldIyMem => exact h.answersReadWord fun _ _ _ => .finish _
  -- writes
  case ldHlR | ldIxR | ldIyR | ldHlN | ldIxN | ldIyN | ldBcA | ldDeA | ldMemA => exact h.answersWrite fun _ _ => .finish _
  case ldMemHl | ldMemDd | ldMemIx | ldMemIy => exact h.answersStoreWord
  -- read-modify-write
  case incHl | incIxd | incIyd | decHl | decIxd | decIyd | rlcHl | rlcIx | rlcIy | rrcHl | rrcIx | rrcIy | rlHl | rlIx | rlIy |
      rrHl | rrIx | rrIy | slaHl | slaIx | slaIy | sraHl | sraIx | sraIy | srlHl | srlIx | srlIy =>
    exact h.answersModify
  case setHl | setIx | setIy | resHl | resIx | resIy => exact h.answersRewrite
  case rld | rrd => exact h.answersRotateDigits
  -- the stack
  case pushQq | pushIx | pushIy => exact h.answersPush (k := id)
  case callNn | rstP => exact h.answersCall
  case callCcNn =>
    unfold execCallCcNn
    split
    · exact h.answersCall
    · exact .finish s
  case popQq | popIx | popIy => exact h.answersPop
  case ret => exact h.answersRet
  case retCc =>
    unfold execRetCc
    split
    · exact h.answersRet
    · exact .finish s
  case reti => exact (h.withBoard _).answersRet
  case retn =>
    obtain ⟨hfault, hcompletes⟩ := (Passes.refl s.restoreEnable).answersRet (i := .retn)
    exact ⟨hfault, hcompletes⟩
  case exSpHl | exSpIx | exSpIy => exact h.answersExchangeTop
  -- blocks
  case ldi | ldd | ldir | lddr => exact h.answersBlockTransfer
  case cpi | cpd | cpir | cpdr => exact h.answersBlockSearch
  case ini | ind | inir | indr => exact h.answersBlockInput
  case outi | outd | otir | otdr => exact h.answersBlockOutput rfl
  -- I/O
  case inAN | inRC => exact h.answersPortRead fun _ _ _ => .finish _
  case outNA | outCR => exact h.answersPortWrite rfl fun _ _ => .finish _

/-- Settles O21: each instruction is a run of machine cycles of which only an I/O write or a gap can end it otherwise. -/
theorem noInstructionFaults : Obligations.NoInstructionFaults := by
  unfold Obligations.NoInstructionFaults
  intro i s
  obtain ⟨hfault, hcompletes⟩ := exec_answers i s
  exact ⟨hfault, hcompletes⟩

/-! ## RESET between two machine cycles -/

/-- A gap with RESET, in which no other master acts, ends the instruction in the state after the reset (R580). -/
theorem State.gap_reset {s : State} {g : Gap} {rest : List Gap} (hgaps : s.gaps = g :: rest) (hreset : g.reset = true)
    (hmaster : g.master = []) :
    s.gap = .error (.next
      { s with gaps := rest, board := (s.board.events s.tick g.events).pollDmas }.performReset) := by
  rw [State.gap, hgaps]
  dsimp only [State.takeGap]
  rw [if_neg fun h => h.1 hmaster, if_pos hreset]

/-- The gap before the second of two write cycles ends the instruction there. -/
theorem State.writeThen_gap_error {s m : State} {a : Word} {v : Byte} {o : Result} (k : State → Result) (hm : s.gap = .ok m)
    (ho : (m.write a v).gap = .error o) : s.writeThen a v (fun t => t.cycle k) = o :=
  (s.writeThen_ok m a v _ hm).trans (State.cycle_error _ o k ho)

theorem State.writeWordThen_gap_error {s m : State} {a w : Word} {o : Result} (k : State → Result) (hm : s.gap = .ok m)
    (ho : (m.write a (lo w)).gap = .error o) : s.writeWordThen a w k = o := State.writeThen_gap_error _ hm ho

theorem State.pushThen_gap_error {s m : State} {w : Word} {o : Result} (k : State → Result) (hm : s.gap = .ok m)
    (ho : (m.write (s.sp - 1#16) (hi w)).gap = .error o) : s.pushThen w k = o := State.writeThen_gap_error _ hm ho

/-- An instruction whose first act after its fetch is a machine cycle ends where the gap before that cycle ends it. -/
theorem exec_gap_error {i : Instr} {s : State} {o : Result} (ho : s.gap = .error o)
    (hi : (i.usesMemory || i.reachesDevices) = true) (hreti : i ≠ .reti) (hretn : i ≠ .retn)
    (hcall : ∀ cc nn, i ≠ .callCcNn cc nn) (hret : ∀ cc, i ≠ .retCc cc) : exec i s = o := by
  cases i
  -- no data or I/O cycle
  case ldRR | ldRN | ldAI | ldAR | ldIA | ldRA | ldDdNn | ldIxNn | ldIyNn | ldSpHl | ldSpIx | ldSpIy | exDeHl | exAfAf | exx |
      addAR | addAN | adcAR | adcAN | subR | subN | sbcAR | sbcAN | andR | andN | xorR | xorN | orR | orN | cpR | cpN | incR |
      decR | daa | cpl | neg | ccf | scf | addHlSs | addIxPp | addIyRr | adcHlSs | sbcHlSs | incSs | incIx | incIy | decSs |
      decIx | decIy | rlca | rrca | rla | rra | rlcR | rrcR | rlR | rrR | slaR | sraR | srlR | bitR | setR | resR | jpNn | jpCcNn |
      jpHl | jpIx | jpIy | jrE | jrNz | jrZ | jrNc | jrC | djnz | nop | halt | di | ei | im0 | im1 | im2 =>
    exact absurd hi nofun
  case reti => exact absurd rfl hreti
  case retn => exact absurd rfl hretn
  case callCcNn cc nn => exact absurd rfl (hcall cc nn)
  case retCc cc => exact absurd rfl (hret cc)
  all_goals exact s.cycle_error o _ ho

/-- Settles O8: the gap with RESET answers the state after the reset, and each instruction goes on to its next machine cycle only from
a gap that does not end it. -/
theorem resetCutsAnInstructionShort : Obligations.ResetCutsAnInstructionShort := by
  unfold Obligations.ResetCutsAnInstructionShort
  refine ⟨fun s g rest hgaps hreset hmaster => ?_, fun i s o ho => exec_gap_error ho, fun s o ho => State.cycle_error _ o _ ho,
    fun s o ho => State.cycle_error _ o _ ho, fun s m o hm => ?_⟩
  · exact ⟨_, State.gap_reset hgaps hreset hmaster, rfl, rfl, rfl, rfl, rfl, rfl, rfl, rfl, rfl,
      s.board.events_pollDmas_mem _ _⟩
  · refine ⟨fun nn ho => ?_, fun dd nn ho => State.writeWordThen_gap_error _ hm ho,
      fun nn ho => State.writeWordThen_gap_error _ hm ho, fun nn ho => State.writeWordThen_gap_error _ hm ho,
      fun qq ho => State.pushThen_gap_error _ hm ho, fun ho => State.pushThen_gap_error _ hm ho,
      fun ho => State.pushThen_gap_error _ hm ho, fun nn ho => State.pushThen_gap_error (fun t => finish (t.jump nn)) hm ho⟩
    rw [← lo_word s.regs.h s.regs.l] at ho
    exact State.writeWordThen_gap_error (w := s.hl) _ hm ho

end Sys2Proof.Machine

/-! # Acceptance of interrupts (R426, R427, R434 to R440, R445, R560) -/

namespace Sys2Proof.Machine

/-! ## The entry -/

/-- An entry in its two write cycles: SP and PC are the CPU's only changes (R426, R437, R438). -/
theorem writesTwice_of_enter {o : State → Result} {s : State} {target : Word} (ho : o s = s.enter target) :
    WritesTwice o s (s.sp - 1#16) (hi s.pc) (s.sp - 2#16) (lo s.pc) (fun n t =>
      t = { n with
        pc := target, sp := s.sp - 2#16, board := { n.board with mem := t.board.mem, log := t.board.log } }) := by
  intro m n hm hn
  refine ⟨_, ho.trans (s.enter_ok m n target hm hn), m.write_stored _ _,
    (n.write_stored _ _).trans_read (fun _ => rfl) rfl, ?_, ?_⟩
  · obtain ⟨mem, l, hwrite⟩ := n.write_eq (s.sp - 2#16) (lo s.pc)
    rw [hwrite]
  · rintro rfl
    exact (m.write_storedTwo _ _ _ _).trans_read fun _ => rfl

/-- The response counts R once where the CPU was not in the HALT state, and keeps its bit 7 (R38, R426, R434, R452). -/
theorem State.respond_r (s : State) :
    (s.halted = false → s.respond.r = (s.r &&& 0x80#8) ||| ((s.r + 1#8) &&& 0x7F#8)) ∧
    s.respond.r &&& 0x80#8 = s.r &&& 0x80#8 := by
  have hr : s.respond.r = refresh (if s.halted then s.haltedR else s.r) 1 := rfl
  refine ⟨fun h => by rw [hr, h]; rfl, ?_⟩
  rw [hr, refresh_bit7]
  split
  · exact s.haltedR_bit7
  · rfl

/-! ## The non-maskable interrupt -/

/-- The state in which the acceptance of an NMI reads the opcode byte that it ignores (R426). -/
def State.respondNmi (s : State) : State := { s.respond with nmiPending := false }

/-- After the ignored byte an NMI is an entry at 0066H (R426). -/
theorem State.takeNmi_ok {s m : State} (h : AfterM1 (s.respondNmi.fetchCycle s.pc).2 m) :
    s.takeNmi = m.enter 0x0066#16 :=
  State.afterM1_ok (s.respondNmi.fetchCycle s.pc).2 m (fun u => u.enter 0x0066#16) h

/-- The cycle of the ignored byte, with what falls into its refresh time, changes the board alone. -/
theorem State.respondNmi_fetch {s m : State} {a : Word} (h : AfterM1 (s.respondNmi.fetchCycle a).2 m) :
    m = { s with
      iff1 := false, nmiPending := false, halted := false, eiDelay := false, r := s.respond.r, board := m.board } := by
  obtain ⟨b, -, rfl⟩ := h
  rfl

/-- Settles O13: the step is the entry at 0066H from the state after the ignored byte. -/
theorem nonMaskableInterruptEntry : Obligations.NonMaskableInterruptEntry := by
  unfold Obligations.NonMaskableInterruptEntry
  refine ⟨fun s m hcase hm => ?_, fun s hdma hdev => ?_⟩
  · have hstep : step s = m.enter 0x0066#16 := ((step_eq s).1 hcase).trans (State.takeNmi_ok hm)
    have hframe := State.respondNmi_fetch hm
    have hr : m.r = s.arrive.respond.r := by rw [hframe]; rfl
    refine ⟨writesTwice_of_enter (o := fun _ => step s) hstep, ?_, ?_⟩
    · rw [hr]; exact hframe
    · rw [hr]; exact s.arrive.respond_r
  · have hdma' := s.arrive_no_dma hdma
    refine ⟨s.arrive.respondNmi, ?_, rfl⟩
    rw [State.resume_no_dma _ hdma']
    have hcycle : (s.arrive.respondNmi.fetchCycle s.arrive.pc).2 = s.arrive.respondNmi := by
      rw [s.arrive.respondNmi.fetchCycle_memory s.arrive.pc hdev]
    exact hcycle ▸ s.arrive.respondNmi.afterM1_no_dma hdma'

/-! ## The acknowledge -/

/-- The CPU taking the bus back changes nothing that the chain looks at. -/
theorem Board.resumeDmas_chain (b : Board) :
    b.resumeDmas.units = b.units ∧ (∀ u, b.resumeDmas.requests u = b.requests u) ∧
    (∀ u, b.resumeDmas.underService u = b.underService u) ∧ ∀ u, b.resumeDmas.vector u = b.vector u := by
  have hdma : ∀ n, b.resumeDmas.dmas[n]? = b.dmas[n]?.map fun d : Dma => { d with paused := false, holding := false } :=
    fun _ => List.getElem?_map ..
  refine ⟨rfl, fun u => ?_, fun u => ?_, fun u => ?_⟩
  all_goals
    cases u with
    | pio | sio | ctc => rfl
    | dma n =>
      simp only [Board.requests, Board.underService, Board.vector, hdma, Option.map_map]
      rfl

theorem Board.firstRequest_congr {b c : Board} (hreq : ∀ u, c.requests u = b.requests u)
    (hserv : ∀ u, c.underService u = b.underService u) (us : List IntUnit) : c.firstRequest us = b.firstRequest us := by
  induction us with
  | nil => rfl
  | cons u us ih => rw [Board.firstRequest, Board.firstRequest, hreq, hserv, ih]

theorem Board.requester_resumeDmas (b : Board) : b.resumeDmas.requester = b.requester := by
  obtain ⟨hunits, hreq, hserv, -⟩ := b.resumeDmas_chain
  rw [Board.requester, hunits, Board.firstRequest_congr hreq hserv]
  rfl

theorem Board.acknowledge_log (b : Board) (u : IntUnit) : (b.acknowledge u).log = b.log := by cases u <;> rfl

/-- An acknowledge puts no DMA on the board. -/
theorem Board.acknowledge_no_dma {b : Board} (u : IntUnit) (h : b.dmas = []) : (b.acknowledge u).dmas = [] := by
  cases u with
  | pio | sio | ctc => exact h
  | dma n => rw [Board.acknowledge, h, List.modify_nil]

/-- An acknowledge cycle with a unit of the chain that requests: its vector, and the unit under service (R436, R560). -/
theorem State.intAck_some {s : State} {u : IntUnit} (h : s.board.requester = some u) (ack : List Byte) :
    s.intAck ack = (s.board.vector u, ack, { s with board := { s.board.acknowledge u with
      log := .intAck (s.board.vector u) :: (s.board.acknowledge u).log } }) := by
  rw [State.intAck, h]

/-- An acknowledge cycle with none: the host's byte (R436). -/
theorem State.intAck_none {s : State} (h : s.board.requester = none) (ack : List Byte) :
    s.intAck ack = (ack.headD (Config.ackByte s.tick), ack.tail, { s with board := { s.board with
      log := .intAck (ack.headD (Config.ackByte s.tick)) :: s.board.log } }) := by
  rw [State.intAck, h]

/-- An acknowledge cycle changes the board alone. -/
theorem State.intAck_eq (s : State) (ack : List Byte) :
    (s.intAck ack).2.2 = { s with board := (s.intAck ack).2.2.board } := by
  cases h : s.board.requester with
  | some u => rw [State.intAck_some h]
  | none => rw [State.intAck_none h]

theorem State.intAck_no_dma {s : State} (ack : List Byte) (hdma : s.board.dmas = []) :
    (s.intAck ack).2.2.board.dmas = [] := by
  cases h : s.board.requester with
  | some u => rw [State.intAck_some h]; exact Board.acknowledge_no_dma u hdma
  | none => rw [State.intAck_none h]; exact hdma

/-- With no DMA on the board the acknowledge cycle completes with nothing in its refresh time. -/
theorem AfterM1.eq_of_no_dma {s m : State} (h : AfterM1 s m) (hdma : s.board.dmas = []) : m = s := by
  obtain ⟨b, hb, rfl⟩ := h
  cases (s.board.transparentByte_no_dma s.tick hdma).symm.trans hb
  rfl

/-- What the acknowledge cycle leaves of the CPU (R434). -/
theorem Acknowledges.eq {s m : State} {ack ops : List Byte} {v : Byte} (h : Acknowledges s ack v ops m) :
    m = { s with
      iff1 := false, iff2 := false, halted := false, eiDelay := false, r := s.respond.r, board := m.board } := by
  obtain ⟨-, -, b, -, rfl⟩ := h
  rw [s.respondInt.intAck_eq ack]
  rfl

/-- The board after the acknowledge cycle, where no DMA can change it. -/
theorem Acknowledges.board_of_no_dma {s m : State} {ack ops : List Byte} {v : Byte} (h : Acknowledges s ack v ops m)
    (hdma : s.board.dmas = []) : m.board = (s.respondInt.intAck ack).2.2.board :=
  congrArg State.board (h.2.2.eq_of_no_dma (State.intAck_no_dma ack hdma))

theorem exists_acknowledges {s : State} (ack : List Byte) (hdma : s.board.dmas = []) :
    ∃ v ops m, Acknowledges s ack v ops m :=
  ⟨_, _, _, rfl, rfl, State.afterM1_no_dma _ (State.intAck_no_dma ack hdma)⟩

/-- The chain's unit that requests delivers its vector and goes under service (R436, R445, R560). -/
theorem Acknowledges.of_requester {s m : State} {ack ops : List Byte} {v : Byte} {u : IntUnit}
    (h : Acknowledges s.resume ack v ops m) (hu : s.board.requester = some u) :
    v = s.board.vector u ∧ ops = ack ∧
      (s.board.dmas = [] → m.board = { s.board.acknowledge u with log := .intAck v :: s.board.log }) := by
  have hack := State.intAck_some (s := s.resume.respondInt) (s.board.requester_resumeDmas.trans hu) ack
  have hv : v = s.board.vector u := by
    rw [← h.1, hack]
    exact s.board.resumeDmas_chain.2.2.2 u
  refine ⟨hv, by rw [← h.2.1, hack], fun hdma => ?_⟩
  rw [s.resume_no_dma hdma] at h hack
  rw [h.board_of_no_dma hdma, hack, hv, Board.acknowledge_log]
  rfl

/-- Where no unit requests, the host's first byte is the one delivered (R436). -/
theorem Acknowledges.of_host {s m : State} {w v : Byte} {rest ops : List Byte}
    (h : Acknowledges s.resume (w :: rest) v ops m) (hnone : s.board.requester = none) :
    v = w ∧ ops = rest ∧ (s.board.dmas = [] → m.board = { s.board with log := .intAck v :: s.board.log }) := by
  have hack := State.intAck_none (s := s.resume.respondInt) (s.board.requester_resumeDmas.trans hnone) (w :: rest)
  have hv : v = w := by rw [← h.1, hack]; rfl
  refine ⟨hv, by rw [← h.2.1, hack]; rfl, fun hdma => ?_⟩
  rw [s.resume_no_dma hdma] at h hack
  rw [h.board_of_no_dma hdma, hack, hv]
  rfl

/-- Settles O15: the acknowledge cycle of the resumed CPU, with or without a unit of the chain that requests. -/
theorem maskableAcceptanceClearsTheEnables : Obligations.MaskableAcceptanceClearsTheEnables := by
  unfold Obligations.MaskableAcceptanceClearsTheEnables
  intro s _
  refine ⟨fun hdma => ?_, fun m v ops hm => ?_⟩
  · have hdma' := s.arrive_no_dma hdma
    rw [s.arrive.resume_no_dma hdma']
    exact exists_acknowledges _ hdma'
  · have hr : m.r = s.arrive.respond.r := by rw [hm.eq]; rfl
    obtain ⟨hcount, hbit⟩ := s.arrive.respond_r
    refine ⟨by rw [hr]; exact hm.eq, by rw [hr]; exact hcount, by rw [hr]; exact hbit, fun u hu => ?_,
      fun hnone w rest hack => ?_⟩
    · obtain ⟨hv, hops, hboard⟩ := hm.of_requester hu
      exact ⟨hv, hops, fun hdma => hboard (s.arrive_no_dma hdma)⟩
    · rw [hack] at hm
      obtain ⟨hv, hops, hboard⟩ := hm.of_host hnone
      exact ⟨hv, hops, fun hdma => hboard (s.arrive_no_dma hdma)⟩

/-! ## The three modes -/

/-- A step at an INT boundary serves the byte of its acknowledge cycle (R434). -/
theorem step_serveInt {s m : State} {v : Byte} {ops : List Byte} (hcase : s.arrive.boundary s.input = .int)
    (hm : Acknowledges s.arrive.resume s.input.ack v ops m) : step s = m.serveInt v ops := by
  obtain ⟨rfl, rfl, hm⟩ := hm
  exact ((step_eq s).2.1 hcase).trans (State.afterM1_ok _ m
    (fun t => t.serveInt (s.arrive.resume.respondInt.intAck s.input.ack).1 (s.arrive.resume.respondInt.intAck s.input.ack).2.1) hm)

/-- The address of an RST (R362, R437). -/
theorem rst_target : ∀ v : Byte, word 0#8 (v &&& 0x38#8) = (v &&& 0x38#8).setWidth 16 := by decide

/-- A supplied CALL with both operand bytes is an entry from the state after their cycles (R437). -/
theorem State.serveInt_call {m p q : State} {lo' hi' : Byte} {rest : List Byte} (him : m.im = .im0) (hp : m.gap = .ok p)
    (hq : p.gap = .ok q) : m.serveInt 0xCD#8 (lo' :: hi' :: rest) = q.enter (hi' ++ lo') :=
  ((m.serveInt_cases 0xCD#8 _).2.1 him rfl).trans <|
    ((m.operandThen_ok p _ hp).1 lo' _).trans ((p.operandThen_ok q _ hq).1 hi' rest)

/-- A supplied CALL is refused at the operand cycle for which there is no byte (R437, R470). -/
theorem State.serveInt_call_refused {m p : State} (him : m.im = .im0) (hp : m.gap = .ok p) :
    m.serveInt 0xCD#8 [] = .refused .mode0CallWithoutOperands ∧
    ∀ q w, p.gap = .ok q → m.serveInt 0xCD#8 [w] = .refused .mode0CallWithoutOperands :=
  ⟨((m.serveInt_cases 0xCD#8 _).2.1 him rfl).trans (m.operandThen_ok p _ hp).2, fun q w hq =>
    ((m.serveInt_cases 0xCD#8 _).2.1 him rfl).trans <|
      ((m.operandThen_ok p _ hp).1 w []).trans (p.operandThen_ok q _ hq).2⟩

/-- After its push an entry by the table reads the word at I:v and goes there (R440). -/
theorem readsTwice_of_enterByTable {o : State → Result} {m p q u : State} {v : Byte} (ho : o u = m.enterByTable v)
    (hp : m.gap = .ok p) (hq : (p.write (m.sp - 1#16) (hi m.pc)).gap = .ok q)
    (hu : u = { q.write (m.sp - 2#16) (lo m.pc) with sp := m.sp - 2#16 }) :
    ReadsTwice o u (m.i ++ v) ((m.i ++ v) + 1#16) (fun x w t => t = { x with pc := w }) := by
  intro a b ha hb
  have hpush : m.enterByTable v = u.readWordThen (word m.i v) fun w x => .next (x.jump w) := by
    rw [hu]
    exact m.pushThen_ok p q m.pc (fun t => t.readWordThen (word m.i v) fun w x => .next (x.jump w)) hp hq
  exact ⟨_, ho.trans (hpush.trans (u.readWordThen_ok a b _ _ ha hb)), b.memRead_read _, rfl⟩

/-- Settles O14: the step is `State.serveInt` of the acknowledged byte, mode by mode. -/
theorem maskableInterruptEntryInEachMode : Obligations.MaskableInterruptEntryInEachMode := by
  unfold Obligations.MaskableInterruptEntryInEachMode
  intro s m v ops hcase hm
  have hstep := step_serveInt hcase hm
  obtain ⟨hrst, -, hother, hmode1, htable, hodd⟩ := m.serveInt_cases v ops
  refine ⟨fun him hv => ?_, fun him hv l h rest hops p q hp hq => ?_, fun him hv p hp => ?_, fun him hv hc => ?_,
    fun him => ?_, fun him hv p q hp hq => ?_, fun him hv => ?_⟩
  · rw [← rst_target]
    exact writesTwice_of_enter (o := fun _ => step s) (hstep.trans (hrst him hv))
  · subst hv hops
    have henter := hstep.trans (State.serveInt_call him hp hq)
    obtain ⟨b, g, rfl⟩ := ((Passes.refl m).gap hp |>.gap hq).exists_eq
    exact writesTwice_of_enter (o := fun _ => step s) henter
  · subst hv
    obtain ⟨hnone, hone⟩ := State.serveInt_call_refused him hp
    exact ⟨by rintro rfl; exact hstep.trans hnone, by rintro q w hq rfl; exact hstep.trans (hone q w hq)⟩
  · exact hstep.trans (hother him hv hc)
  · exact writesTwice_of_enter (o := fun _ => step s) (hstep.trans (hmode1 him))
  · exact ⟨p.write_stored _ _, q.write_stored _ _,
      readsTwice_of_enterByTable (o := fun _ => step s) (hstep.trans (htable him hv)) hp hq rfl⟩
  · exact hstep.trans (hodd him hv)

end Sys2Proof.Machine

/-! # The priority chain, the CTC and the PIO (R445, R483 to R491, R530, R532, R560) -/

namespace Sys2Proof.Machine

/-! ## The priority chain -/

/-- The unit that is chosen requests, and no unit before it or at it lowers IEI (R560). -/
theorem Board.firstRequest_eq_some {b : Board} {us : List IntUnit} {u : IntUnit} (h : b.firstRequest us = some u) :
    ∃ before after, us = before ++ u :: after ∧ b.requests u = true ∧ b.underService u = false ∧
      ∀ v ∈ before, b.requests v = false ∧ b.underService v = false := by
  induction us with
  | nil => cases h
  | cons w us ih =>
    rw [Board.firstRequest] at h
    split at h
    · cases h
    next hserv =>
    split at h
    next hreq =>
      cases h
      exact ⟨[], us, rfl, hreq, eq_false_of_ne_true hserv, List.forall_mem_nil _⟩
    next hreq =>
      obtain ⟨before, after, rfl, hu, hus, hbefore⟩ := ih h
      exact ⟨w :: before, after, rfl, hu, hus,
        List.forall_mem_cons.mpr ⟨⟨eq_false_of_ne_true hreq, eq_false_of_ne_true hserv⟩, hbefore⟩⟩

/-- A requesting unit with none under service before it or at it is not passed over without a choice (R560). -/
theorem Board.firstRequest_ne_none {b : Board} {before after : List IntUnit} {u : IntUnit} (hreq : b.requests u = true)
    (hserv : b.underService u = false) (hbefore : ∀ v ∈ before, b.underService v = false) :
    b.firstRequest (before ++ u :: after) ≠ none := by
  induction before with
  | nil => simp [Board.firstRequest, hreq, hserv]
  | cons w before ih =>
    obtain ⟨hw, hbefore⟩ := List.forall_mem_cons.mp hbefore
    rw [List.cons_append, Board.firstRequest, hw, if_neg Bool.false_ne_true]
    split
    · exact nofun
    · exact ih hbefore

/-- Settles O59: the chosen unit is the first that requests, and none is chosen where each that requests is blocked. -/
theorem chainAcknowledgesTheFirstRequest : Obligations.ChainAcknowledgesTheFirstRequest := by
  unfold Obligations.ChainAcknowledgesTheFirstRequest
  refine fun b us => ⟨fun u => Board.firstRequest_eq_some, fun hnone before u after hus hreq => ?_, fun hblocked => ?_⟩
  · by_contra hfree
    simp only [not_or, not_exists, not_and, Bool.not_eq_true] at hfree
    exact Board.firstRequest_ne_none hreq hfree.1 hfree.2 (hus ▸ hnone)
  · cases hfirst : b.firstRequest us with
    | none => rfl
    | some u =>
      obtain ⟨before, after, hus, hreq, hserv, hbefore⟩ := Board.firstRequest_eq_some hfirst
      rcases hblocked before u after hus hreq with hs | ⟨v, hv, hs⟩
      · exact absurd (hserv.symm.trans hs) nofun
      · exact absurd ((hbefore v hv).2.symm.trans hs) nofun

/-! ## A CTC channel in counter mode -/

/-- The number of events that a loaded channel counts to, 0 in the time constant for 256 (R530). -/
def CtcChannel.period (c : CtcChannel) : Nat := if c.tc = 0#8 then 256 else c.tc.toNat

/-- The down counter is at its last count exactly before the last event of the period. -/
theorem CtcChannel.last_count_iff (c : CtcChannel) {k : Nat} (hk : k < c.period) :
    c.tc - BitVec.ofNat 8 k - 1#8 = 0#8 ↔ k + 1 = c.period := by
  unfold CtcChannel.period at *
  split at hk
  next h0 => rw [if_pos h0, h0]; bv_omega
  next h0 => rw [if_neg h0]; bv_omega

/-- An active edge at a running channel in counter mode whose counter shows `d` (R532). -/
theorem CtcChannel.edge_counts {c : CtcChannel} (hrun : c.running = true) (hmode : c.ctrl.getLsbD 6 = true) (d : Byte) :
    ({ c with down := d }.edge (c.ctrl.getLsbD 4)).1 =
      if d - 1#8 = 0#8 then { c with down := c.tc, pending := c.pending || c.ctrl.getLsbD 7 }
      else { c with down := d - 1#8 } := by
  have hcount : { c with down := d }.edge (c.ctrl.getLsbD 4) = { c with down := d }.count := by
    rw [CtcChannel.edge, if_pos rfl, CtcChannel.counterMode, if_pos hmode, if_pos hrun]
  rw [hcount, CtcChannel.count]
  split <;> rfl

/-- Fewer edges than the period are only counted (R532). -/
theorem CtcChannel.edges_of_lt {c : CtcChannel} (hrun : c.running = true) (hmode : c.ctrl.getLsbD 6 = true)
    (hload : c.down = c.tc) {k : Nat} (hk : k < c.period) : c.edges k = { c with down := c.tc - BitVec.ofNat 8 k } := by
  induction k with
  | zero =>
    rw [BitVec.sub_zero]
    exact congrArg (fun d => { c with down := d }) hload
  | succ k ih =>
    have hlast : ¬c.tc - BitVec.ofNat 8 k - 1#8 = 0#8 := (c.last_count_iff (by omega)).not.mpr (by omega)
    have hdown : c.tc - BitVec.ofNat 8 k - 1#8 = c.tc - BitVec.ofNat 8 (k + 1) := by bv_omega
    rw [CtcChannel.edges, ih (by omega)]
    rw [CtcChannel.edge_counts hrun hmode, if_neg hlast, hdown]

/-- The last edge of the period requests the interrupt and loads the counter again (R532). -/
theorem CtcChannel.edges_period {c : CtcChannel} (hrun : c.running = true) (hmode : c.ctrl.getLsbD 6 = true)
    (hload : c.down = c.tc) : c.edges c.period = { c with down := c.tc, pending := c.pending || c.ctrl.getLsbD 7 } := by
  have hpos : 0 < c.period := by
    unfold CtcChannel.period
    split <;> bv_omega
  obtain ⟨k, hk⟩ : ∃ k, c.period = k + 1 := ⟨c.period - 1, by omega⟩
  have hlast : c.tc - BitVec.ofNat 8 k - 1#8 = 0#8 := (c.last_count_iff (by omega)).mpr hk.symm
  rw [hk, CtcChannel.edges, CtcChannel.edges_of_lt hrun hmode hload (by omega)]
  rw [CtcChannel.edge_counts hrun hmode, if_pos hlast]

/-- Settles O58: by induction over the edges of one period. -/
theorem counterInterruptsOnTheNthEvent : Obligations.CounterInterruptsOnTheNthEvent := by
  unfold Obligations.CounterInterruptsOnTheNthEvent
  intro c k hrun hmode hint hload hpending
  refine ⟨fun hk => ?_, ?_⟩
  · rw [CtcChannel.edges_of_lt hrun hmode hload hk]
    exact ⟨hpending, rfl⟩
  · have hend := CtcChannel.edges_period hrun hmode hload
    rw [CtcChannel.period] at hend
    rw [hend]
    exact ⟨by rw [hint, Bool.or_true], rfl⟩

/-! ## PIO control words: the chip -/

/-- A control word that the port takes replaces that port, and settles B RDY (R483, R485). -/
theorem Pio.writeControl_ok {p : Pio} {portB : Bool} {w : Byte} {q : PioPort}
    (h : (p.port portB).writeControl portB w = .ok q) :
    p.writeControl portB w = .ok { (p.setPort portB q).settle with inReset := false } := by
  rw [Pio.writeControl, h]

/-- Settling changes B RDY alone (R485). -/
theorem Pio.settle_eq (p : Pio) : p.settle = { p with
    b := if p.b.mode = .bitControl ∧ p.a.mode ≠ .bidirectional then { p.b with ready := false } else p.b } := by
  unfold Pio.settle
  split <;> rfl

/-- In the reset state a data read raises no ready but for mode 2 (R483, R485). -/
theorem Pio.readData_inReset {p : Pio} (h : p.inReset = true) (portB : Bool) (free : Byte) :
    ((p.readData portB free).2.a.ready = p.a.ready ∨ p.a.mode = .bidirectional) ∧
    ((p.readData portB free).2.b.ready = p.b.ready ∨ p.a.mode = .bidirectional ∨ p.b.mode = .bidirectional) := by
  unfold Pio.readData
  dsimp only
  split
  · exact ⟨.inl rfl, .inl rfl⟩
  · rw [if_pos h]
    exact ⟨.inl rfl, .inl rfl⟩
  next hmode =>
    refine ⟨.inl rfl, .inr ?_⟩
    cases portB with
    | false => exact .inl hmode
    | true => exact .inr hmode
  · exact ⟨.inl rfl, .inl rfl⟩

/-! ## PIO control words: the port -/

theorem and_lowNibble : ∀ w : Byte, w &&& 0x0F#8 = (w.extractLsb' 0 4).setWidth 8 := by decide

theorem setWidth_nibble_inj : ∀ n k : BitVec 4, n.setWidth 8 = k.setWidth 8 ↔ n = k := by decide

theorem lowNibble_eq_iff (w : Byte) (k : BitVec 4) : w &&& 0x0F#8 = k.setWidth 8 ↔ w.extractLsb' 0 4 = k := by
  rw [and_lowNibble, setWidth_nibble_inj]

theorem getLsbD_zero_eq_lowNibble (w : Byte) : w.getLsbD 0 = (w.extractLsb' 0 4).getLsbD 0 := by simp

theorem getLsbD_six_seven_eq (w : Byte) :
    w.getLsbD 6 = (w.extractLsb' 6 2).getLsbD 0 ∧ w.getLsbD 7 = (w.extractLsb' 6 2).getLsbD 1 := by simp

section
variable {p : PioPort} {portB : Bool} {w : Byte}

/-- What each low nibble makes of a word where no other word is expected (R484). -/
theorem PioPort.writeControl_nothing (h : p.expect = .nothing) {n : BitVec 4} (hn : w.extractLsb' 0 4 = n) :
    p.writeControl portB w =
      if n.getLsbD 0 = false then .ok { p with vector := w }
      else if n = 0xF#4 then p.setMode portB w
      else if n = 0x7#4 then .ok (p.interruptControl w)
      else if n = 0x3#4 then .ok { p with intEnable := w.getLsbD 7 }
      else .error (.pioControlWord w) := by
  have hF : w &&& 0x0F#8 = 0x0F#8 ↔ n = 0xF#4 := hn ▸ lowNibble_eq_iff w 0xF#4
  have h7 : w &&& 0x0F#8 = 0x07#8 ↔ n = 0x7#4 := hn ▸ lowNibble_eq_iff w 0x7#4
  have h3 : w &&& 0x0F#8 = 0x03#8 ↔ n = 0x3#4 := hn ▸ lowNibble_eq_iff w 0x3#4
  rw [PioPort.writeControl, h]
  simp only [getLsbD_zero_eq_lowNibble w, hn, hF, h7, h3]

/-- What the two upper bits of a mode word select (R487). -/
theorem PioPort.setMode_cases (p : PioPort) (portB : Bool) (w : Byte) :
    (w.extractLsb' 6 2 = 0#2 → p.setMode portB w = .ok { p with mode := .output }) ∧
    (w.extractLsb' 6 2 = 1#2 → p.setMode portB w = .ok { p with mode := .input }) ∧
    (w.extractLsb' 6 2 = 2#2 → portB = false → p.setMode portB w = .ok { p with mode := .bidirectional }) ∧
    (w.extractLsb' 6 2 = 2#2 → portB = true → p.setMode portB w = .error .pioPortBBidirectional) ∧
    (w.extractLsb' 6 2 = 3#2 →
      p.setMode portB w = .ok { p with mode := .bitControl, ready := false, expect := .ioSelect }) := by
  obtain ⟨h6, h7⟩ := getLsbD_six_seven_eq w
  unfold PioPort.setMode
  rw [h6, h7]
  refine ⟨fun h => ?_, fun h => ?_, fun h hb => ?_, fun h hb => ?_, fun h => ?_⟩ <;> rw [h]
  · rfl
  · rfl
  · rw [hb]; rfl
  · rw [hb]; rfl
  · rfl

/-- What an interrupt control word writes (R489). -/
theorem PioPort.interruptControl_cases (h : p.expect = .nothing) :
    (p.interruptControl w).intEnable = w.getLsbD 7 ∧ (p.interruptControl w).andOr = w.getLsbD 6 ∧
    (p.interruptControl w).highLow = w.getLsbD 5 ∧
    (w.getLsbD 4 = true → (p.interruptControl w).pending = false ∧ (p.interruptControl w).expect = .mask) ∧
    (w.getLsbD 4 = false → (p.interruptControl w).pending = p.pending ∧ (p.interruptControl w).expect = .nothing) ∧
    p.interruptControl w = { p with
      intEnable := (p.interruptControl w).intEnable, andOr := (p.interruptControl w).andOr
      highLow := (p.interruptControl w).highLow, pending := (p.interruptControl w).pending
      expect := (p.interruptControl w).expect } := by
  unfold PioPort.interruptControl
  refine ⟨rfl, rfl, rfl, fun h4 => ?_, fun h4 => ?_, rfl⟩
  · rw [h4]; exact ⟨rfl, rfl⟩
  · rw [h4]; exact ⟨rfl, h⟩

end

/-- Settles O60: a word that is not expected is told apart by its low nibble, and a mode word by its two upper bits. -/
theorem pioControlWordsAreToldApart : Obligations.PioControlWordsAreToldApart := by
  unfold Obligations.PioControlWordsAreToldApart
  refine ⟨fun p portB w => ⟨fun q hq => ?_, fun e he => ?_, fun hreset => ⟨?_, ?_, p.readData_inReset hreset portB w⟩⟩,
    fun p portB w => ⟨fun h => ?_, fun h => ?_, fun h => ⟨fun hw => ?_, fun hn => ?_, fun hn => ?_, fun hn => ?_, fun hn => ?_⟩⟩⟩
  · rw [Pio.writeControl_ok hq, Pio.settle_eq]
    cases portB <;> rfl
  · rw [Pio.writeControl, he]
  · rw [Pio.strobe, if_pos hreset]
  · rw [Pio.writeData, if_pos hreset]
  · rw [PioPort.writeControl, h]
  · rw [PioPort.writeControl, h]
  · rw [PioPort.writeControl_nothing h rfl, ← getLsbD_zero_eq_lowNibble, if_pos hw]
  · exact PioPort.writeControl_nothing h hn
  · exact ⟨_, PioPort.writeControl_nothing h hn, PioPort.interruptControl_cases h⟩
  · have hmode : p.writeControl portB w = p.setMode portB w := PioPort.writeControl_nothing h hn
    rw [hmode]
    exact p.setMode_cases portB w
  · simp only [List.mem_cons, List.not_mem_nil, or_false] at hn
    rcases hn with hn | hn | hn | hn | hn
    all_goals exact PioPort.writeControl_nothing h hn

end Sys2Proof.Machine
